-- ==== Sys2Proof/Word.lean ====
section
/-!
DEFINITION. The words, digits and fixed codes of the bitcode block (spec 00_scope.md R9, R12;
30_encoding.md R73, R74, R76).  A word is a bit vector; a digit sequence is a list, digit 0 first in time.
-/

namespace Sys2Proof

/-- A 64-bit unsigned value (R9 VALUE_WIDTH). -/
abbrev Word := BitVec 64
/-- The packed frame word F (R62). -/
abbrev FrameWord := BitVec 68
/-- A stimulus word, op in bits 67:64 and operand in bits 63:0 (R78). -/
abbrev StimulusWord := BitVec 68
/-- A 4-bit operation id (R76). -/
abbrev OpId := BitVec 4
/-- A 3-bit code of `st` or of `xs` (R73, R74). -/
abbrev Code3 := BitVec 3
/-- A digit sequence in time order, digit 0 first (R12). -/
abbrev Digits := List Bool
/-- A driver status: an opaque integer, 0 means success (R10, R120). -/
abbrev DriverStatus := Int
/-- A diagnostic clock reading, in a unit the spec leaves open (R20 `t_start`). -/
abbrev Time := Nat
/-- A diagnostic duration, in a unit the spec leaves open (R38 `rec_latency`). -/
abbrev Duration := Nat
/-- The opaque name of a physical line (R10, R44). -/
abbrev LineSpec := Nat
/-- The name of a sample rate, a positive real in Hz (R10; `Config.hertz`).  Log entry 1. -/
abbrev RateName := Nat
/-- The name of a poll interval, a positive duration (R10; `Config.pollTime`).  Log entry 1. -/
abbrev IntervalName := Nat

/-- LOGICAL_LEN = PAYLOAD_BITS + FRAME_BITS (R9). -/
abbrev logicalLen : Nat := 68
/-- PHYS_LEN = 68·R (R9). -/
abbrev physLen (R : Nat) : Nat := logicalLen * R
/-- RB_LEN = 68·R + 1 (R9). -/
abbrev rbLen (R : Nat) : Nat := logicalLen * R + 1

/-! FSM state codes (R73). -/

@[simp] abbrev stIdleCode : Code3 := 0b000#3
@[simp] abbrev stMarkerAssertedCode : Code3 := 0b001#3
@[simp] abbrev stXferCode : Code3 := 0b010#3
@[simp] abbrev stMarkerDeassertedCode : Code3 := 0b011#3
@[simp] abbrev stVerifiedCode : Code3 := 0b100#3
@[simp] abbrev stExitedCode : Code3 := 0b101#3

/-! XFER sub-state codes (R74). -/

@[simp] abbrev xsArmCode : Code3 := 0b000#3
@[simp] abbrev xsStartCode : Code3 := 0b001#3
@[simp] abbrev xsWaitCode : Code3 := 0b010#3
@[simp] abbrev xsStopWCode : Code3 := 0b011#3
@[simp] abbrev xsStopRCode : Code3 := 0b100#3

/-! Operation ids (R76). -/

abbrev opEncode : OpId := 0x0#4
abbrev opDecode : OpId := 0x1#4
abbrev opFrameCheck : OpId := 0x2#4
abbrev opCellSet : OpId := 0x3#4
abbrev opCellGet : OpId := 0x4#4
abbrev opStopReq : OpId := 0x5#4
abbrev opOpenLine : OpId := 0x6#4
abbrev opConfigure : OpId := 0x7#4
abbrev opWriteImm : OpId := 0x8#4
abbrev opWriteClk : OpId := 0x9#4
abbrev opReadClk : OpId := 0xA#4
abbrev opStopClk : OpId := 0xB#4
abbrev opSampleEdge : OpId := 0xC#4
abbrev opReset : OpId := 0xD#4
abbrev opReservedE : OpId := 0xE#4
abbrev opReservedF : OpId := 0xF#4

end Sys2Proof
end

