-- ==== Sys2Proof/Syntax.lean ====
section
/-!
DEFINITION. The operations of the block as syntax: one constructor of `Instr` per row of
spec/opcode_table.json (16 operation ids, 8 codes of `st`, 8 codes of `xs`), the words that carry
them, and the turns of the four agents (spec 30_encoding.md R73 to R78, 20_memory.md R55).
-/

namespace Sys2Proof

/-- The three lines of the block; also the names of their channels (R31). -/
inductive Line
  | marker
  | dataOut
  | dataIn
  deriving DecidableEq, Repr, Inhabited

/-- The active edge of the sample clock (R10 CLOCK_EDGE). -/
inductive Edge
  | rising
  | falling
  deriving DecidableEq, Repr, Inhabited

/-- A trigger source of a clocked transfer: NONE, or the start event of a named channel (R32, R33). -/
inductive Trigger
  | none
  | startOf (c : Line)
  deriving DecidableEq, Repr, Inhabited

/-- The clocked-transfer configuration of one channel (R32, R33). -/
structure ClockCfg where
  rate : RateName
  edge : Edge
  count : Nat
  trig : Trigger
  deriving DecidableEq, Repr, Inhabited

/-- The rows of spec/opcode_table.json.  Rows `op` carry the operands their rule gives them; rows
`fsm_state` and `xfer_sub` are the codes of `st` and `xs`, whose instruction is the action the FSM runs
when its sequencing register holds that code (R93). -/
inductive Instr
  | encode (v : Word)
  | decode (q : Digits)
  | frameCheck (q : Digits)
  | cellSet (v : Word)
  | cellGet
  | stopReq
  | openLine (l : Line)
  | configure (h : Line) (cfg : ClockCfg)
  | writeImm (h : Line) (b : Bool)
  | writeClk (h : Line) (bits : Digits)
  | readClk (h : Line) (n : Nat)
  | stopClk (h : Line)
  | sampleEdge
  | reset
  | reservedE
  | reservedF
  | stIdle
  | stMarkerAsserted
  | stXfer
  | stMarkerDeasserted
  | stVerified
  | stExited
  | stReserved6
  | stReserved7
  | xsArm
  | xsStart
  | xsWait
  | xsStopW
  | xsStopR
  | xsReserved5
  | xsReserved6
  | xsReserved7
  deriving DecidableEq, Repr

/-- The operands of an operation word.  The spec gives an operation 4 bits of id and lays its operands
out in bits only in the stimulus words of R78, so here the operands stand as data. -/
inductive Operands
  | none
  | value (v : Word)
  | digits (q : Digits)
  | line (l : Line)
  | lineCfg (h : Line) (cfg : ClockCfg)
  | lineBit (h : Line) (b : Bool)
  | lineDigits (h : Line) (bits : Digits)
  | lineCount (h : Line) (n : Nat)
  deriving DecidableEq, Repr, Inhabited

/-- An operation word: the 4-bit operation id of R76 and its operands. -/
structure OpWord where
  op : OpId
  operands : Operands
  deriving DecidableEq, Repr, Inhabited

/-- The three code spaces of spec/opcode_table.json (its formats op, fsm_state and xfer_sub). -/
inductive TableCode
  | op (w : OpWord)
  | state (c : Code3)
  | sub (c : Code3)
  deriving DecidableEq, Repr, Inhabited

/-- A turn: which agent takes the next step of the interleaving (R17, R55).  `boot` is the host side
making the next call of R152; `reset` is the input `rst`. -/
inductive Turn
  | producerSet (v : Word)
  | producerStop
  | reset
  | boot
  | fsm
  | sampler
  deriving DecidableEq, Repr, Inhabited

/-- What the outside world has queued for the block: a stimulus word (R78), an operation word given to
the unit that performs it, or a turn of an agent. -/
inductive Fetch
  | stimulus (w : StimulusWord)
  | word (w : OpWord)
  | turn (t : Turn)
  deriving DecidableEq, Repr, Inhabited

end Sys2Proof
end

