-- ==== Sys2Proof/Config.lean ====
section
/-!
DEFINITION. What an implementation fixes (the parameters of 00_scope.md R10, as data that no step
changes) and the draws of R13: constants without a body, so that nothing can be proved of the value
they give.  A draw is applied to the state's draw counter, so each step draws afresh.
-/

namespace Sys2Proof

/-- The positive real a rate's name stands for (R10 SAMPLE_RATE_HZ, R32 `w_rate`, R33 `r_rate`).  No rule
depends on it (R134, R160), so a step compares and copies names only. -/
noncomputable opaque Config.hertz : RateName → {r : ℝ // 0 < r}
/-- The positive duration an interval's name stands for (R10 POLL_INTERVAL), in a unit the spec leaves
open.  No rule depends on it (R160). -/
noncomputable opaque Config.pollTime : IntervalName → {t : ℝ // 0 < t}

/-- The parameters a model takes as arguments (R10).  The rate and the poll interval are names of positive
reals (`Config.hertz`, `Config.pollTime`), so neither can be 0; `clockSource` and the three line specs are
opaque names; no rule depends on `clockSource` or `pollInterval` (R134, R160). -/
structure Params where
  R : Nat
  sampleRate : RateName
  clockEdge : Edge
  clockSource : Nat
  pollInterval : IntervalName
  cellInit : Word
  lastInit : Word
  markerLine : LineSpec
  dataOutLine : LineSpec
  dataInLine : LineSpec
  deriving DecidableEq, Repr

/-- The parameters of the state after power-on: R = 1, the spec's defaults CELL_INIT = LAST_INIT = 0
(R10), and arbitrary names.  DESIGN CHOICE, log entry 2. -/
def Params.reset : Params where
  R := 1
  sampleRate := 0
  clockEdge := .rising
  clockSource := 0
  pollInterval := 0
  cellInit := 0
  lastInit := 0
  markerLine := 0
  dataOutLine := 1
  dataInLine := 2

/-- The opaque line spec of a line (R10, D35). -/
def Params.spec (p : Params) : Line → LineSpec
  | .marker => p.markerLine
  | .dataOut => p.dataOutLine
  | .dataIn => p.dataInLine

/-- Which agent takes the next step when the outside world has queued nothing (R55, R118). -/
opaque Config.freeTurn : Nat → Turn
/-- How many turns pass before the next edge of the sample clock under DRIVER_COMPLETES (R121, R134). -/
opaque Config.freeGap : Nat → Nat
/-- The status of a driver call (R120). -/
opaque Config.freeStatus : Nat → DriverStatus
/-- Whether the DRIVER is willing to complete the call made now (R94, R121). -/
opaque Config.freeCompletes : Nat → Bool
/-- Whether a failed WRITE_IMM reached the line (R125). -/
opaque Config.freeMarker : Nat → Bool
/-- `wr_armed` after a failed WRITE_CLK or on a dirty channel (R126, R132). -/
opaque Config.freeArmed : Nat → Bool
/-- `wr_dirty` after a reset during a transfer (R151). -/
opaque Config.freeWrDirty : Nat → Bool
/-- `rd_dirty` after a reset during a transfer (R151). -/
opaque Config.freeRdDirty : Nat → Bool
/-- The level of `dout` after reset (R40) and along a failed read (R127). -/
opaque Config.freeDout : Nat → Bool
/-- The level of `din` at a sample edge without LOOPBACK_IDEAL (R130). -/
opaque Config.freeDin : Nat → Bool
/-- Digit `j` of the receive buffer after a failed read (R127). -/
opaque Config.freeRx : Nat → Nat → Bool
/-- The diagnostic clock reading at the marker's rise (R97). -/
opaque Config.freeTime : Nat → Time
/-- The latency of a record, measured from `t_start` (R104, R109). -/
opaque Config.freeLatency : Nat → Time → Duration

end Sys2Proof
end

