-- ==== Sys2Proof/WellFormed.lean ====
section
/-!
DEFINITION. The operands each operation admits, under the parameters of the block: R ≥ 1 (R72), the
fixed sequence lengths (R69, R71), the one legal handle of each call (R125 to R128) and the one legal
configuration of each clocked channel (R34).
-/

namespace Sys2Proof

/-- The parameters are legal: R ≥ 1 (R10, R72).  That the rate and the poll interval are positive stands in
the types of `Config.hertz` and `Config.pollTime`. -/
def Params.wf (p : Params) : Bool := decide (1 ≤ p.R)

/-- The only configuration of a clocked channel that R34 and R124 allow; the marker line has none. -/
def Params.legalCfg (p : Params) : Line → Option ClockCfg
  | .marker => none
  | .dataOut => some ⟨p.sampleRate, p.clockEdge, physLen p.R, .startOf .dataIn⟩
  | .dataIn => some ⟨p.sampleRate, p.clockEdge, rbLen p.R, .none⟩

/-- The operands are ones the instruction's rule admits.  The reserved rows of R75 and R77 admit none. -/
def Instr.wf (p : Params) : Instr → Bool
  | .encode _ => p.wf
  | .decode q => p.wf && q.length == rbLen p.R
  | .frameCheck q => p.wf && q.length == rbLen p.R
  | .cellSet _ => true
  | .cellGet => true
  | .stopReq => true
  | .openLine _ => true
  | .configure h cfg => p.wf && p.legalCfg h == some cfg
  | .writeImm h _ => h == .marker
  | .writeClk h bits => h == .dataOut && bits.length == physLen p.R
  | .readClk h n => h == .dataIn && n == rbLen p.R
  | .stopClk h => h != .marker
  | .sampleEdge => true
  | .reset => true
  | .reservedE => false
  | .reservedF => false
  | .stIdle => true
  | .stMarkerAsserted => true
  | .stXfer => true
  | .stMarkerDeasserted => true
  | .stVerified => true
  | .stExited => true
  | .stReserved6 => false
  | .stReserved7 => false
  | .xsArm => true
  | .xsStart => true
  | .xsWait => true
  | .xsStopW => true
  | .xsStopR => true
  | .xsReserved5 => false
  | .xsReserved6 => false
  | .xsReserved7 => false

end Sys2Proof
end

