-- ==== Sys2Proof/Decode.lean ====
section
/-!
DEFINITION. The decoder of operation words, of `st` and `xs` codes and of stimulus words, the encoder
of each, and the reading of a bare row of spec/opcode_table.json (30_encoding.md R73 to R78).
-/

namespace Sys2Proof

/-- Why a word is refused. -/
inductive DecodeError
  /-- A stimulus word whose op is none of CELL_SET, STOP_REQ, RESET (R78, R77). Safe. -/
  | illegalStimulus (op : OpId)
  /-- A STOP_REQ or RESET stimulus word whose operand is not 64'h0 (R78). Safe. -/
  | stimulusOperand (op : OpId)
  /-- An operation word whose operands are not of the form its rule gives (R81 to R129). Safe. -/
  | operandForm (op : OpId)
  deriving DecidableEq, Repr

/-- Decode an operation word by its id (R76). -/
def decodeOp (w : OpWord) : Except DecodeError Instr :=
  match w.op.toNat, w.operands with
  | 0, .value v => .ok (.encode v)
  | 1, .digits q => .ok (.decode q)
  | 2, .digits q => .ok (.frameCheck q)
  | 3, .value v => .ok (.cellSet v)
  | 4, .none => .ok .cellGet
  | 5, .none => .ok .stopReq
  | 6, .line l => .ok (.openLine l)
  | 7, .lineCfg h cfg => .ok (.configure h cfg)
  | 8, .lineBit h b => .ok (.writeImm h b)
  | 9, .lineDigits h bits => .ok (.writeClk h bits)
  | 10, .lineCount h n => .ok (.readClk h n)
  | 11, .line h => .ok (.stopClk h)
  | 12, .none => .ok .sampleEdge
  | 13, .none => .ok .reset
  | 14, .none => .ok .reservedE
  | 15, .none => .ok .reservedF
  | _, _ => .error (.operandForm w.op)

/-- Decode a code of the state register `st`: the action of the state (R73, R75). -/
def decodeState (c : Code3) : Instr :=
  match c.toNat with
  | 0 => .stIdle
  | 1 => .stMarkerAsserted
  | 2 => .stXfer
  | 3 => .stMarkerDeasserted
  | 4 => .stVerified
  | 5 => .stExited
  | 6 => .stReserved6
  | _ => .stReserved7

/-- Decode a code of the sub-state register `xs`: the action of the sub-state (R74, R75). -/
def decodeSub (c : Code3) : Instr :=
  match c.toNat with
  | 0 => .xsArm
  | 1 => .xsStart
  | 2 => .xsWait
  | 3 => .xsStopW
  | 4 => .xsStopR
  | 5 => .xsReserved5
  | 6 => .xsReserved6
  | _ => .xsReserved7

/-- Decode a row of any of the table's three code spaces. -/
def decodeCode : TableCode → Except DecodeError Instr
  | .op w => decodeOp w
  | .state c => .ok (decodeState c)
  | .sub c => .ok (decodeSub c)

/-- The op field of a stimulus word, bits 67:64 (R78). -/
def stimulusOp (w : StimulusWord) : OpId := w.extractLsb' 64 4

/-- The operand field of a stimulus word, bits 63:0 (R78). -/
def stimulusOperand (w : StimulusWord) : Word := w.extractLsb' 0 64

/-- Decode a stimulus word; every op but CELL_SET, STOP_REQ and RESET is refused (R78). -/
def decodeStimulus (w : StimulusWord) : Except DecodeError Instr :=
  match (stimulusOp w).toNat with
  | 3 => .ok (.cellSet (stimulusOperand w))
  | 5 => if stimulusOperand w = 0 then .ok .stopReq else .error (.stimulusOperand (stimulusOp w))
  | 13 => if stimulusOperand w = 0 then .ok .reset else .error (.stimulusOperand (stimulusOp w))
  | _ => .error (.illegalStimulus (stimulusOp w))

/-- The code of an instruction in the space it belongs to (R73, R74, R76). -/
def encodeCode : Instr → TableCode
  | .encode v => .op ⟨opEncode, .value v⟩
  | .decode q => .op ⟨opDecode, .digits q⟩
  | .frameCheck q => .op ⟨opFrameCheck, .digits q⟩
  | .cellSet v => .op ⟨opCellSet, .value v⟩
  | .cellGet => .op ⟨opCellGet, .none⟩
  | .stopReq => .op ⟨opStopReq, .none⟩
  | .openLine l => .op ⟨opOpenLine, .line l⟩
  | .configure h cfg => .op ⟨opConfigure, .lineCfg h cfg⟩
  | .writeImm h b => .op ⟨opWriteImm, .lineBit h b⟩
  | .writeClk h bits => .op ⟨opWriteClk, .lineDigits h bits⟩
  | .readClk h n => .op ⟨opReadClk, .lineCount h n⟩
  | .stopClk h => .op ⟨opStopClk, .line h⟩
  | .sampleEdge => .op ⟨opSampleEdge, .none⟩
  | .reset => .op ⟨opReset, .none⟩
  | .reservedE => .op ⟨opReservedE, .none⟩
  | .reservedF => .op ⟨opReservedF, .none⟩
  | .stIdle => .state stIdleCode
  | .stMarkerAsserted => .state stMarkerAssertedCode
  | .stXfer => .state stXferCode
  | .stMarkerDeasserted => .state stMarkerDeassertedCode
  | .stVerified => .state stVerifiedCode
  | .stExited => .state stExitedCode
  | .stReserved6 => .state 0b110#3
  | .stReserved7 => .state 0b111#3
  | .xsArm => .sub xsArmCode
  | .xsStart => .sub xsStartCode
  | .xsWait => .sub xsWaitCode
  | .xsStopW => .sub xsStopWCode
  | .xsStopR => .sub xsStopRCode
  | .xsReserved5 => .sub 0b101#3
  | .xsReserved6 => .sub 0b110#3
  | .xsReserved7 => .sub 0b111#3

/-- The stimulus word with a given op and operand: `{op[3:0], operand[63:0]}` (R78). -/
def stimulusWord (op : OpId) (operand : Word) : StimulusWord := op ++ operand

/-- The stimulus word of a PRODUCER action; no other instruction has one (R78). -/
def encodeStimulus : Instr → Option StimulusWord
  | .cellSet v => some (stimulusWord opCellSet v)
  | .stopReq => some (stimulusWord opStopReq 0)
  | .reset => some (stimulusWord opReset 0)
  | .encode _ | .decode _ | .frameCheck _ | .cellGet => none
  | .openLine _ | .configure _ _ | .writeImm _ _ | .writeClk _ _ | .readClk _ _ | .stopClk _ => none
  | .sampleEdge | .reservedE | .reservedF => none
  | .stIdle | .stMarkerAsserted | .stXfer | .stMarkerDeasserted | .stVerified | .stExited => none
  | .stReserved6 | .stReserved7 | .xsArm | .xsStart | .xsWait | .xsStopW | .xsStopR => none
  | .xsReserved5 | .xsReserved6 | .xsReserved7 => none

/-- The operands of a bare operation id: zeros, and for an operand the table lists by its legal values
the first of them, at the parameters `p`.  DESIGN CHOICE, log entry 5. -/
def tableOperands (p : Params) (op : OpId) : Operands :=
  match op.toNat with
  | 0 => .value 0
  | 1 => .digits (List.replicate (rbLen p.R) false)
  | 2 => .digits (List.replicate (rbLen p.R) false)
  | 3 => .value 0
  | 6 => .line .marker
  | 7 => .lineCfg .dataOut ⟨p.sampleRate, p.clockEdge, physLen p.R, .startOf .dataIn⟩
  | 8 => .lineBit .marker false
  | 9 => .lineDigits .dataOut (List.replicate (physLen p.R) false)
  | 10 => .lineCount .dataIn (rbLen p.R)
  | 11 => .line .dataOut
  | _ => .none

/-- The operation word of a bare row of spec/opcode_table.json: its low four bits are the id. -/
def tableWord (p : Params) (w : Nat) : OpWord :=
  ⟨BitVec.ofNat 4 w, tableOperands p (BitVec.ofNat 4 w)⟩

/-- The instruction the decoder reads from the first `nbits` bits `w` of a table row.  The table's
operation ids, `st` codes and `xs` codes share the numbers 0 to 7 and carry no mark of their space; a
bare number is read as an operation id (log entry 5). -/
def decodeTableWord (nbits w : Nat) : Option Instr :=
  (decodeOp (tableWord Params.reset (w % 2 ^ nbits))).toOption

end Sys2Proof
end

