-- ==== Sys2Proof/Machine/State.lean ====
section
/-!
DEFINITION. The state of the block (spec 10_state.md R17 to R42, 20_memory.md R43 to R51) as plain
data, the faults and refusals, and the state after reset (R42, R151).
-/

namespace Sys2Proof.Machine

/-- The registers that R42 leaves unwritten after reset and that some rule reads (R21). -/
inductive RegName
  | cap
  | tStart
  | tx
  | rx
  deriving DecidableEq, Repr

/-- Why the block stops with a fault. -/
inductive Fault
  /-- `st` or `xs` holds a reserved code when the FSM takes its step, whatever the other register holds
  (R75, R95). Safe: no rule writes one. -/
  | reservedState
  /-- A rule reads a register that R42 leaves unwritten and no rule has written since reset.  The stop is the
  spec's own: R21 "A model must fault if a rule reads one before a rule writes it", U18, V113.  Safe. -/
  | unwritten (r : RegName)
  /-- The SAMPLER's index lies outside a sequence (R12: an error of the spec, never a value). Safe. -/
  | indexOutOfRange
  deriving DecidableEq, Repr

/-- Why an operation has no meaning for its input (R13 `refuse`). -/
inductive Refusal
  /-- The instruction has no meaning in the model yet. Safe. -/
  | notModelled (mnemonic : String)
  /-- R = 0 (R72): raised by every operation and FSM step that uses R, and by every step of the machine.
  Safe. -/
  | badRepeatFactor
  /-- A read-back whose length is not 68·R+1 (R71): raised by DECODE, FRAME_CHECK and VERIFIED. Safe. -/
  | badReadbackLength
  /-- A WRITE_CLK of a sequence whose length is not 68·R (R126). Safe. -/
  | badSequenceLength
  /-- A READ_CLK whose count is not 68·R+1 (R127). Safe. -/
  | badSampleCount
  /-- A CONFIGURE with arguments other than the block's (R34, R124). Safe. -/
  | badConfiguration
  /-- A call on a channel its rule does not admit (R31, R125 to R128). Safe. -/
  | badHandle
  /-- An operation id that names no operation (R77): raised by the rows reserved_E and reserved_F. Safe. -/
  | reservedOperation (op : OpId)
  /-- A word the decoder refuses (R77, R78). Safe. -/
  | undecodable (e : DecodeError)
  /-- A directive of a stimulus script outside its range: `DRIVER FAIL op 0`, where R79 asks for s ≠ 0, or a
  `FLIP j` of a sample no read-back has (R66, R79). Safe. -/
  | badDirective
  deriving DecidableEq, Repr

/-- One TransmissionRecord on the record output (R38, R104): `rec_sent`, `rec_received`, `rec_matched`,
`rec_frame_ok`, `rec_driver_err`, `rec_latency`. -/
structure TxRecord where
  sent : Word
  received : Word
  matched : Bool
  frameOk : Bool
  driverErr : Bool
  latency : Duration
  deriving DecidableEq, Repr

/-- One event on the error output (R136). -/
inductive ErrorEvent
  | driverCallFailed (call : OpId) (status : DriverStatus)
  | roundtripMismatch (sent received : Word)
  deriving DecidableEq, Repr

/-- What the last operation returned to its caller (R13 `call Op(args) -> status`, and the `return` of
R81, R87, R90, R115, R123, R127).  The model's own field, log entry 6. -/
inductive Returned
  | nothing
  | frame (F : FrameWord) (P : Digits)
  | value (v : Word)
  | bit (b : Bool)
  | status (s : DriverStatus)
  | opened (s : DriverStatus) (fresh : Bool)
  | readback (s : DriverStatus) (q : Digits)
  deriving DecidableEq, Repr

/-- A channel handle: opaque, and fresh at each OPEN_LINE (R31, R123). -/
structure Handle where
  spec : LineSpec
  serial : Nat
  deriving DecidableEq, Repr

/-- The next call of the boot sequence, or `released` once the FSM may take its first step (R152). -/
inductive BootPhase
  | openMarker
  | openDataOut
  | openDataIn
  | configureDataOut
  | configureDataIn
  | released
  deriving DecidableEq, Repr

/-- An outstanding READ_CLK: the status the DRIVER will return and whether it is known to return
(R94, R127; drawn at the issue, log entry 8). -/
structure ReadCall where
  status : DriverStatus
  returns : Bool
  deriving DecidableEq, Repr

/-- The environment's premises and pending script directives (R79, R120, R121, R130).  The model's own. -/
structure Env where
  /-- DRIVER_OK holds: the status of every call is 0 (R120). -/
  driverOk : Bool
  /-- DRIVER_COMPLETES holds: every call completes, and the sample clock keeps giving edges while the SAMPLER
  runs (R121). -/
  driverCompletes : Bool
  /-- LOOPBACK_IDEAL holds (`LOOPBACK IDEAL`). -/
  loopback : Bool
  /-- Pending `DRIVER FAIL op s` directives, oldest first. -/
  fails : List (OpId × DriverStatus)
  /-- A pending `PRE d` for the transfer whose read is issued next. -/
  pre : Option Bool
  /-- The level `PRE d` gave the line before edge 0 of the transfer in flight, which is sample 0 (R79). -/
  preNow : Option Bool
  /-- The samples `FLIP j` inverts in the next transfer. -/
  flipNext : List Nat
  /-- The samples inverted in the transfer in flight. -/
  flipNow : List Nat
  deriving DecidableEq, Repr

/-- The state of the block. -/
structure State where
  /-- The elaboration-time parameters (R10, R35); no step writes them. -/
  params : Params
  /-- The environment (the model's own field). -/
  env : Env
  /-- What the outside world has queued, oldest first (the model's own field). -/
  queue : List Fetch
  /-- The draw counter (the model's own field). -/
  tick : Nat
  /-- Turns left before the sample clock's next edge under DRIVER_COMPLETES (R121; the model's own field). -/
  edgeGap : Nat
  /-- The boot sequence (R152). -/
  boot : BootPhase
  /-- The FSM state register (R22). -/
  st : Code3
  /-- The XFER sub-state register (R23). -/
  xs : Code3
  lastObs : Word
  cap : Option Word
  rcv : Option Word
  matched : Bool
  frameOk : Bool
  cycErr : Bool
  tStart : Option Time
  /-- The transmit buffer (R25). -/
  tx : Option Digits
  /-- The receive buffer, digit by digit; `none` is a digit no edge has written (R26). -/
  rx : List (Option Bool)
  /-- The sample index (R27). -/
  k : Nat
  wrArmed : Bool
  /-- The armed write missed the start event of the read in flight, so it waits for the next one (implied by R126,
  R127 and R156; log entry 28). -/
  lateWrite : Bool
  engRun : Bool
  wrDirty : Bool
  rdDirty : Bool
  busy : Bool
  /-- The outstanding READ_CLK (R41). -/
  rdCall : Option ReadCall
  hMarker : Option Handle
  hDout : Option Handle
  hDin : Option Handle
  /-- `w_rate`, `w_edge`, `w_count`, `w_trig` (R32). -/
  wCfg : Option ClockCfg
  /-- `r_rate`, `r_edge`, `r_count`, `r_trig` (R33). -/
  rCfg : Option ClockCfg
  /-- The level of MARKER_LINE (R40). -/
  marker : Bool
  /-- The level of DATA_OUT_LINE (R40). -/
  dout : Bool
  /-- The shared timestamp cell (R43, R46). -/
  cell : Word
  /-- The shared stop flag (R29, R51). -/
  stop : Bool
  /-- The record pulsed in this step; `none` is `rec_valid` = 0 (R38, R39). -/
  record : Option TxRecord
  /-- The error pulsed in this step; `none` is `err_valid` = 0 (R38, R39). -/
  err : Option ErrorEvent
  /-- The input port `enc_value` (R36). -/
  encValue : Word
  /-- The input port `dec_rb` (R37). -/
  decRb : Digits
  ret : Returned
  deriving DecidableEq, Repr

/-- A step's answer. -/
abbrev Result := Host.Outcome State Fault Refusal

/-- The environment with no premise and no directive. -/
def Env.free : Env where
  driverOk := false
  driverCompletes := false
  loopback := false
  fails := []
  pre := none
  preNow := none
  flipNext := []
  flipNow := []

/-- The table of R42 at the parameters `p`, with `dout` at the level `d` (R42: a draw). -/
def State.atReset (p : Params) (d : Bool) : State where
  params := p
  env := Env.free
  queue := []
  tick := 0
  edgeGap := 0
  boot := .openMarker
  st := stIdleCode
  xs := xsArmCode
  lastObs := p.lastInit
  cap := none
  rcv := none
  matched := false
  frameOk := false
  cycErr := false
  tStart := none
  tx := none
  rx := List.replicate (rbLen p.R) none
  k := 0
  wrArmed := false
  lateWrite := false
  engRun := false
  wrDirty := false
  rdDirty := false
  busy := false
  rdCall := none
  hMarker := none
  hDout := none
  hDin := none
  wCfg := none
  rCfg := none
  marker := false
  dout := d
  cell := p.cellInit
  stop := false
  record := none
  err := none
  encValue := 0
  decRb := List.replicate (rbLen p.R) false
  ret := .nothing

/-- The machine right after reset: the table of R42, `dout` the draw of index 0. -/
def State.reset : State := State.atReset Params.reset (Config.freeDout 0)

end Sys2Proof.Machine
end

