-- ==== Sys2Proof/Machine/Decoder.lean ====
section
/-!
DEFINITION. DEC as a combinational unit: the payload value and the informational frame check
(30_encoding.md R66 to R72, 41_decoder.md R87 to R92).
-/

namespace Sys2Proof.Machine

/-- Logical digit `b` of a read-back: the leading sample dropped, then the first digit of block `b`
(R67, R87). -/
def decoderLogical (q : Digits) (R b : Nat) : Bool := (q.drop 1).getD (b * R) false

/-- The payload of a read-back, first digit most significant (R68, R87). -/
def decoderValue (q : Digits) (R : Nat) : Word :=
  BitVec.ofNat 64
    ((List.range 64).foldl (fun acc i => 2 * acc + (decoderLogical q R (2 + i)).toNat) 0)

/-- The four frame digits read 0, 1 … 1, 0 (R90). -/
def decoderFrameOk (q : Digits) (R : Nat) : Bool :=
  !decoderLogical q R 0 && decoderLogical q R 1 &&
    (decoderLogical q R 66 && !decoderLogical q R 67)

/-- Why DECODE and FRAME_CHECK refuse, if they do: R < 1, then a wrong length (R71, R72, R87, R90). -/
def decoderRefusal (q : Digits) (R : Nat) : Option Refusal :=
  if R < 1 then some .badRepeatFactor
  else if q.length = rbLen R then none
  else some .badReadbackLength

/-- The output port `dec_value` (R37). -/
def State.decValue (s : State) : Word := decoderValue s.decRb s.params.R

/-- The output port `dec_frame_ok` (R37). -/
def State.decFrameOk (s : State) : Bool := decoderFrameOk s.decRb s.params.R

end Sys2Proof.Machine
end

