-- ==== Sys2Proof/Machine/Encoder.lean ====
section
/-!
DEFINITION. ENC as a combinational unit: the frame word and the physical sequence (30_encoding.md R61
to R65, 40_encoder.md R81 to R86).
-/

namespace Sys2Proof.Machine

/-- The frame word `{2'b01, v, 2'b10}` (R62). -/
def encoderFrame (v : Word) : FrameWord := 0b01#2 ++ v ++ 0b10#2

/-- Logical digit `j` of `v`: bit 67−j of the frame word (R62). -/
def encoderLogical (v : Word) (j : Nat) : Bool := (encoderFrame v).getLsbD (67 - j)

/-- The physical sequence: logical digit `j div R` for each `j` below 68·R (R64, R81). -/
def encoderSeq (v : Word) (R : Nat) : Digits :=
  (List.range (physLen R)).map fun j => encoderLogical v (j / R)

/-- Why ENCODE refuses, if it does: R < 1 (R72, R81). -/
def encoderRefusal (R : Nat) : Option Refusal :=
  if R < 1 then some .badRepeatFactor else none

/-- The output port `enc_frame` (R36). -/
def State.encFrame (s : State) : FrameWord := encoderFrame s.encValue

/-- The output port `enc_seq` (R36). -/
def State.encSeq (s : State) : Digits := encoderSeq s.encValue s.params.R

end Sys2Proof.Machine
end

