-- ==== Sys2Proof/Machine/Operands.lean ====
section
/-!
DEFINITION. The operand forms of the driver calls: handles, channel configurations, sequence lengths and
sample counts, and when a channel is one a call can succeed on (10_state.md R31 to R34,
44_dio_interface.md R122 to R128).
-/

namespace Sys2Proof.Machine

/-- The handle register of a line (R31). -/
def State.handle (s : State) : Line → Option Handle
  | .marker => s.hMarker
  | .dataOut => s.hDout
  | .dataIn => s.hDin

/-- Write the handle register of a line (R31). -/
def State.setHandle (s : State) (l : Line) (h : Handle) : State :=
  match l with
  | .marker => { s with hMarker := some h }
  | .dataOut => { s with hDout := some h }
  | .dataIn => { s with hDin := some h }

/-- The configuration fields of a channel (R32, R33). -/
def State.clockCfg (s : State) : Line → Option ClockCfg
  | .marker => none
  | .dataOut => s.wCfg
  | .dataIn => s.rCfg

/-- Write the configuration fields of a channel (R32, R33, R124). -/
def State.setClockCfg (s : State) (l : Line) (c : ClockCfg) : State :=
  match l with
  | .marker => s
  | .dataOut => { s with wCfg := some c }
  | .dataIn => { s with rCfg := some c }

/-- Boot wrote the handle and, on a clocked channel, the configuration that R34 allows (R122). -/
def State.usable (s : State) (l : Line) : Bool :=
  (s.handle l).isSome && s.clockCfg l == s.params.legalCfg l

/-- Why CONFIGURE refuses, if it does: a channel that is not clocked, R = 0, or any argument other than
the block's (R34, R72, R124). -/
def State.configureRefusal (s : State) (h : Line) (c : ClockCfg) : Option Refusal :=
  if h = .marker then some .badHandle
  else if s.params.R < 1 then some .badRepeatFactor
  else if s.params.legalCfg h = some c then none
  else some .badConfiguration

/-- Why WRITE_IMM refuses, if it does: its handle is always `h_marker` (R125). -/
def writeImmRefusal (h : Line) : Option Refusal :=
  if h = .marker then none else some .badHandle

/-- Why WRITE_CLK refuses, if it does: its handle is always `h_dout` and it takes 68·R digits, R ≥ 1 (R72,
R126). -/
def State.writeClkRefusal (s : State) (h : Line) (bits : Digits) : Option Refusal :=
  if h ≠ .dataOut then some .badHandle
  else if s.params.R < 1 then some .badRepeatFactor
  else if bits.length = physLen s.params.R then none
  else some .badSequenceLength

/-- Why READ_CLK refuses, if it does: its handle is always `h_din` and its count 68·R+1, R ≥ 1 (R72, R127). -/
def State.readClkRefusal (s : State) (h : Line) (n : Nat) : Option Refusal :=
  if h ≠ .dataIn then some .badHandle
  else if s.params.R < 1 then some .badRepeatFactor
  else if n = rbLen s.params.R then none
  else some .badSampleCount

/-- Why STOP_CLK refuses, if it does: only the two clocked channels can be stopped (R128). -/
def stopClkRefusal (h : Line) : Option Refusal :=
  if h = .marker then some .badHandle else none

/-- Read a buffer whole; `none` while a digit is unwritten (R21). -/
def allWritten : List (Option Bool) → Option Digits
  | [] => some []
  | none :: _ => none
  | some d :: rest =>
    match allWritten rest with
    | none => none
    | some ds => some (d :: ds)

end Sys2Proof.Machine
end

