-- ==== Sys2Proof/Machine/Flags.lean ====
section
/-!
DEFINITION. The control flags of a transfer and who writes them (10_state.md R20, R28, R30), and whether the sequencing registers hold
legal codes (30_encoding.md R75): `wr_armed`,
`eng_run`, `wr_dirty`, `rd_dirty`, `busy`, `cyc_err`, `matched`, `frame_ok`.  The block has no condition
codes.
-/

namespace Sys2Proof.Machine

/-- `st` and `xs` hold no reserved code (R75, R95). -/
def State.codesLegal (s : State) : Bool := decide (s.st.toNat ≤ 5) && decide (s.xs.toNat ≤ 4)

/-- `cyc_err` is set when a call of the transfer failed (R20, R137). -/
def State.markFailure (s : State) (st : DriverStatus) : State :=
  if st = 0 then s else { s with cycErr := true }

/-- `wr_armed` after WRITE_CLK: set on success; a draw on failure or on a dirty channel (R126, R132).  DESIGN CHOICE,
log entry 30: a channel that no STOP_CLK was tried on since its last cycle is not dirty. -/
def State.armedAfter (s : State) (st : DriverStatus) : Bool :=
  if s.wrDirty then Config.freeArmed s.tick
  else if st = 0 then true
  else Config.freeArmed s.tick

/-- The flags after STOP_CLK on a channel (R128). -/
def State.stopFlags (s : State) (h : Line) (st : DriverStatus) : State :=
  match h with
  | .marker => s
  | .dataOut => if st = 0 then { s with wrArmed := false, wrDirty := false } else { s with wrDirty := true }
  | .dataIn => if st = 0 then { s with engRun := false, rdDirty := false } else { s with rdDirty := true }

/-- A reset that comes while an operation of the driver may be running (R151). -/
def State.interrupted (s : State) : Bool :=
  (s.st != stIdleCode && s.st != stExitedCode) || s.engRun || s.busy

/-- The samples of the read in flight are unknown: its call fails, or its channel is dirty (R127, R132). -/
def State.readUnknown (s : State) : Bool :=
  s.rdDirty ||
    match s.rdCall with
    | none => false
    | some c => c.status != 0

/-- `matched` and `frame_ok` after VERIFIED, from the read-back `q` and the captured value `v` (R104). -/
def State.verifyFlags (s : State) (q : Digits) (v : Word) : State :=
  { s with
    matched := decide (decoderValue q s.params.R = v)
    frameOk := decoderFrameOk q s.params.R }

end Sys2Proof.Machine
end

