-- ==== Sys2Proof/Machine/Ops.lean ====
section
/-!
DEFINITION. The named operations: the start of a step, the shared cell and stop flag, the error and record
outputs, the status and completion of driver calls, the six calls of the digital-I/O capability and the
sample engine (20_memory.md R46 to R51, 44_dio_interface.md, 60_exceptions.md R135 to R145).
-/

namespace Sys2Proof.Machine

/-- Every step begins by ending the pulses of the last one (R39) and taking a fresh draw index. -/
def State.begin (s : State) : State :=
  { s with tick := s.tick + 1, record := none, err := none, ret := .nothing }

/-- Go on from a next state; stop at a fault or a refusal. -/
def Result.andThen (r : Result) (f : State → Result) : Result :=
  match r with
  | .next s => f s
  | .fault e => .fault e
  | .refused e => .refused e

/-- Run a step that uses R; R = 0 is refused (R72). -/
def State.withRepeat (s : State) (r : Result) : Result :=
  if s.params.wf then r else .refused .badRepeatFactor

/-- Run an action of the FSM; a reserved code in `st` or in `xs` faults (R75). -/
def State.fsmAction (s : State) (r : Result) : Result :=
  if s.codesLegal then r else .fault .reservedState

/-! The shared cell and the stop flag. -/

/-- CellWrite: one atomic whole-word write (R47, R48). -/
def State.cellWrite (s : State) (v : Word) : State := { s with cell := v }

/-- CellRead: the most recent CellWrite's value (R48). -/
def State.cellRead (s : State) : Word := s.cell

/-- StopWrite: set-only (R51). -/
def State.stopWrite (s : State) : State := { s with stop := true }

/-- StopRead (R51). -/
def State.stopRead (s : State) : Bool := s.stop

/-! Errors: the block's exceptions.  Raising one pulses the error output and changes nothing else; there
is no trap entry and no return (R137, R138, R144, R145). -/

/-- Pulse the error output with an event (R137, R138). -/
def State.raise (s : State) (e : ErrorEvent) : State := { s with err := some e }

/-- `raise DriverError(call, s)` when the status is not 0 (R137). -/
def State.raiseDriver (s : State) (call : OpId) (st : DriverStatus) : State :=
  if st = 0 then s else s.raise (.driverCallFailed call st)

/-- `raise Mismatch(sent, received)` when they differ (R138). -/
def State.raiseMismatch (s : State) (sent received : Word) : State :=
  if received = sent then s else s.raise (.roundtripMismatch sent received)

/-- A failing call of the transfer: DriverError, and `cyc_err` set (R97 to R103, R137). -/
def State.noteCall (s : State) (call : OpId) (st : DriverStatus) : State :=
  (s.raiseDriver call st).markFailure st

/-- `err_code` (R136). -/
def ErrorEvent.code : ErrorEvent → BitVec 2
  | .driverCallFailed _ _ => 1#2
  | .roundtripMismatch _ _ => 2#2

/-- `err_call` (R136): a mismatch names DECODE. -/
def ErrorEvent.call : ErrorEvent → OpId
  | .driverCallFailed op _ => op
  | .roundtripMismatch _ _ => opDecode

/-- `err_status`, defined for a driver failure only (R136). -/
def ErrorEvent.status : ErrorEvent → Option DriverStatus
  | .driverCallFailed _ st => some st
  | .roundtripMismatch _ _ => none

/-- `rec_valid` (R38). -/
def State.recValid (s : State) : Bool := s.record.isSome

/-- `err_valid` (R38). -/
def State.errValid (s : State) : Bool := s.err.isSome

/-- One pulse of an output. -/
inductive OutputPulse
  | record (r : TxRecord)
  | error (e : ErrorEvent)
  deriving DecidableEq, Repr

/-- The pulses of a step in output order: the record comes first (R143). -/
def State.outputs (s : State) : List OutputPulse :=
  (s.record.map OutputPulse.record).toList ++ (s.err.map OutputPulse.error).toList

/-! Driver calls: status and completion. -/

/-- The status a pending `DRIVER FAIL` directive gives the next call with this id (R79). -/
def State.scripted (s : State) (op : OpId) : Option DriverStatus :=
  (s.env.fails.find? fun f => f.1 == op).map (·.2)

/-- The directive is used up by the call (R79). -/
def State.useScripted (s : State) (op : OpId) : State :=
  { s with env := { s.env with fails := s.env.fails.eraseP fun f => f.1 == op } }

/-- The DRIVER is willing to complete a call made now: it is under DRIVER_COMPLETES (R94, R95, R121). -/
def State.completes (s : State) (op : OpId) : Bool :=
  s.env.driverCompletes || (s.scripted op).isSome || Config.freeCompletes s.tick

/-- A status that is not 0, from any integer; every non-zero integer is the image of one. -/
def failureStatus (x : Int) : DriverStatus := if x < 0 then x else x + 1

/-- The status before the handle is looked at: the directive's, 0 under DRIVER_OK, or a draw (R120). -/
def State.rawStatus (s : State) (op : OpId) : DriverStatus :=
  match s.scripted op with
  | some st => st
  | none => if s.env.driverOk then 0 else Config.freeStatus s.tick

/-- The status of a call: on a channel that is not usable it is a draw among the failures (R120, R122). -/
def State.callStatus (s : State) (op : OpId) (usable : Bool) : DriverStatus :=
  if usable || s.rawStatus op != 0 then s.rawStatus op
  else failureStatus (Config.freeStatus s.tick)

/-- Run a step that makes a call; while the DRIVER does not complete it, nothing happens (R94). -/
def State.whenCompletes (s : State) (op : OpId) (f : State → State) : State :=
  if s.completes op then f s else s

/-! Boot. -/

/-- The call after this one in the boot sequence (R152). -/
def BootPhase.next : BootPhase → BootPhase
  | .openMarker => .openDataOut
  | .openDataOut => .openDataIn
  | .openDataIn => .configureDataOut
  | .configureDataOut => .configureDataIn
  | .configureDataIn => .released
  | .released => .released

/-- The boot sequence goes on when the call it waits for returns, whatever its status (R152). -/
def State.bootReturn (s : State) (phase : BootPhase) : State :=
  if s.boot = phase then { s with boot := phase.next } else s

/-- The OPEN_LINE call of the boot sequence for a line (R152). -/
def openPhase : Line → BootPhase
  | .marker => .openMarker
  | .dataOut => .openDataOut
  | .dataIn => .openDataIn

/-- The CONFIGURE call of the boot sequence for a channel (R152). -/
def configurePhase : Line → BootPhase
  | .marker => .released
  | .dataOut => .configureDataOut
  | .dataIn => .configureDataIn

/-! The six calls.  Each answers the state after the call; the status it returned stands in `ret`, and
the FSM takes it from `callStatus`. -/

/-- The handle register after OPEN_LINE: a fresh handle on success, as it was on failure (R123).  DESIGN CHOICE,
log entry 12: on a line that already has a handle, which boot never opens again, a success replaces it and a
failure keeps it. -/
def State.openHandle (s : State) (l : Line) (st : DriverStatus) : State :=
  if st = 0 then s.setHandle l ⟨s.params.spec l, s.tick⟩ else s

/-- OPEN_LINE (R123). -/
def State.openLine (s : State) (l : Line) : State :=
  let st := s.callStatus opOpenLine true
  let t := (((s.useScripted opOpenLine).openHandle l st).raiseDriver opOpenLine st).bootReturn (openPhase l)
  { t with ret := .opened st (st == 0) }

/-- The configuration fields after CONFIGURE: written on success, as they were on failure (R124). -/
def State.writeCfg (s : State) (h : Line) (c : ClockCfg) (st : DriverStatus) : State :=
  if st = 0 then s.setClockCfg h c else s

/-- CONFIGURE (R124). -/
def State.configure (s : State) (h : Line) (c : ClockCfg) : State :=
  let st := s.callStatus opConfigure (s.handle h).isSome
  let t := (((s.useScripted opConfigure).writeCfg h c st).raiseDriver opConfigure st).bootReturn
    (configurePhase h)
  { t with ret := .status st }

/-- The status WRITE_IMM returns (R125). -/
def State.writeImmStatus (s : State) : DriverStatus := s.callStatus opWriteImm (s.usable .marker)

/-- The marker level after WRITE_IMM: the new level on success, the old or the new on failure (R125). -/
def State.markerAfter (s : State) (b : Bool) (st : DriverStatus) : Bool :=
  if st = 0 then b else if Config.freeMarker s.tick then b else s.marker

/-- WRITE_IMM on `h_marker` (R125). -/
def State.writeImm (s : State) (b : Bool) : State :=
  { s.useScripted opWriteImm with
    marker := s.markerAfter b s.writeImmStatus
    ret := .status s.writeImmStatus }

/-- The status WRITE_CLK returns (R126). -/
def State.writeClkStatus (s : State) : DriverStatus := s.callStatus opWriteClk (s.usable .dataOut)

/-- WRITE_CLK on `h_dout`: the digits are held in `tx`; nothing is driven until the next start event, so a call
made while a read runs has missed this one (R126, R156; log entry 28). -/
def State.writeClk (s : State) (bits : Digits) : State :=
  { s.useScripted opWriteClk with
    tx := some bits
    wrArmed := s.armedAfter s.writeClkStatus
    lateWrite := s.engRun
    ret := .status s.writeClkStatus }

/-- The outcome of a READ_CLK issued now, drawn at its issue (R127; log entry 8). -/
def State.newReadCall (s : State) : ReadCall :=
  ⟨s.callStatus opReadClk (s.usable .dataIn), s.env.driverCompletes || (s.scripted opReadClk).isSome⟩

/-- READ_CLK, the issue: the start event of both streams, which triggers an armed write (R127).  The script's directives for the next
transfer take hold here (R79).  DESIGN CHOICE, log entry 29: an issue in XFER START while a READ_CLK word is
outstanding replaces that call. -/
def State.readClkIssue (s : State) : State :=
  let t := s.useScripted opReadClk
  { t with
    rdCall := some s.newReadCall
    k := 0
    engRun := true
    lateWrite := false
    dout := s.env.pre.getD s.dout
    env := { t.env with pre := none, preNow := s.env.pre, flipNow := s.env.flipNext, flipNext := [] } }

/-- The outstanding READ_CLK; a completion that finds none draws its outcome now.  DESIGN CHOICE, log
entry 29: it then takes the status of a pending `DRIVER FAIL` for READ_CLK and leaves the directive pending. -/
def State.readCall (s : State) : ReadCall := s.rdCall.getD s.newReadCall

/-- The DRIVER is willing to complete the outstanding READ_CLK (R94, R100, R121). -/
def State.readReturns (s : State) : Bool :=
  s.env.driverCompletes || s.readCall.returns || Config.freeCompletes s.tick

/-- The receive buffer after the completion: draws if the call failed or its channel is dirty (R127;
a channel is dirty after a failed STOP_CLK only, DESIGN CHOICE, log entry 30). -/
def State.rxAfter (s : State) : List (Option Bool) :=
  if s.readCall.status ≠ 0 ∨ s.rdDirty = true then
    (List.range (rbLen s.params.R)).map fun j => some (Config.freeRx s.tick j)
  else s.rx

/-- READ_CLK, the completion: it returns the status and `rx` (R127); a digit no edge has written cannot be
read (R21). -/
def State.readClkComplete (s : State) : Result :=
  match allWritten s.rxAfter with
  | none => .fault (.unwritten .rx)
  | some q =>
    .next
      { s with
        rx := s.rxAfter
        rdCall := none
        ret := .readback s.readCall.status q }

/-- READ_CLK as one call: issued when none is outstanding; completed once the engine has stopped and the
DRIVER returns; until then nothing happens (R94, R127).  DESIGN CHOICE, log entry 29: a READ_CLK word presented
while a READ_CLK is outstanding, the FSM's own included, is that call's wait or completion and starts no new
transfer; it does not write `busy`. -/
def State.readClk (s : State) : Result :=
  if s.rdCall.isNone then .next s.readClkIssue
  else if s.engRun || !s.readReturns then .next s
  else s.readClkComplete

/-- The status STOP_CLK returns (R128). -/
def State.stopClkStatus (s : State) (h : Line) : DriverStatus := s.callStatus opStopClk (s.usable h)

/-- STOP_CLK (R128). -/
def State.stopClk (s : State) (h : Line) : State :=
  { (s.useScripted opStopClk).stopFlags h (s.stopClkStatus h) with ret := .status (s.stopClkStatus h) }

/-! The sample engine. -/

/-- The level `PRE d` fixes for this edge's sample: sample 0 only (R79). -/
def State.presetSample (s : State) : Option Bool := if s.k = 0 then s.env.preNow else none

/-- `Sample(din)` at this edge: the level of `dout` under LOOPBACK_IDEAL, a draw without it (R130), at edge 0
what `PRE d` fixes for it; inverted where a `FLIP` directive says so (R79).  DESIGN CHOICE, log entry 16: two
`FLIP` directives with one index invert the sample once, and `FLIP 0` inverts the level `PRE` fixed. -/
def State.sampleDin (s : State) : Bool :=
  s.presetSample.getD (if s.env.loopback then s.dout else Config.freeDin s.tick) ^^ s.env.flipNow.contains s.k

/-- The level of `dout` after this edge: digit `k` of an armed write, else as it was (R129).  A write armed while
this read already ran missed its start event and drives nothing (R126, R156; log entry 28). -/
def State.driveLevel (s : State) : Except Fault Bool :=
  if s.wrArmed = true ∧ s.lateWrite = false ∧ s.k < physLen s.params.R then
    match s.tx with
    | none => .error (.unwritten .tx)
    | some t =>
      match t[s.k]? with
      | none => .error .indexOutOfRange
      | some d => .ok d
  else .ok s.dout

/-- The state after one edge that leaves `dout` at the level `d` (R129); along a read whose samples are
unknown the level is a draw (R127). -/
def State.edgeTo (s : State) (d : Bool) : State :=
  { s with
    rx := s.rx.set s.k (some s.sampleDin)
    dout := if s.readUnknown then Config.freeDout s.tick else d
    engRun := s.k != physLen s.params.R
    k := s.k + 1 }

/-- One edge while the engine runs: the read samples, then the write drives (R129). -/
def State.runEdge (s : State) : Result :=
  if physLen s.params.R < s.k ∨ s.rx.length ≤ s.k then .fault .indexOutOfRange
  else
    match s.driveLevel with
    | .error f => .fault f
    | .ok d => .next (s.edgeTo d)

/-- SAMPLE_EDGE: enabled only while the engine runs (R129). -/
def State.sampleEdge (s : State) : Result :=
  if s.engRun = false then .next s else s.withRepeat s.runEdge

end Sys2Proof.Machine
end

