-- ==== Sys2Proof/Machine/Dio.lean ====
section
/-!
DEFINITION. The meanings of the six digital-I/O calls and of SAMPLE_EDGE (44_dio_interface.md R123 to
R129).  A call the DRIVER does not complete leaves the block as it is (R94).
-/

namespace Sys2Proof.Machine

/-- OPEN_LINE (R123). -/
def execOpenLine (l : Line) (s : State) : Result :=
  .next (s.begin.whenCompletes opOpenLine fun t => t.openLine l)

/-- CONFIGURE (R124, R34). -/
def execConfigure (h : Line) (c : ClockCfg) (s : State) : Result :=
  match s.configureRefusal h c with
  | some r => .refused r
  | none => .next (s.begin.whenCompletes opConfigure fun t => t.configure h c)

/-- WRITE_IMM (R125). -/
def execWriteImm (h : Line) (b : Bool) (s : State) : Result :=
  match writeImmRefusal h with
  | some r => .refused r
  | none => .next (s.begin.whenCompletes opWriteImm fun t => t.writeImm b)

/-- WRITE_CLK (R126, R132). -/
def execWriteClk (h : Line) (bits : Digits) (s : State) : Result :=
  match s.writeClkRefusal h bits with
  | some r => .refused r
  | none => .next (s.begin.whenCompletes opWriteClk fun t => t.writeClk bits)

/-- READ_CLK (R127, R132). -/
def execReadClk (h : Line) (n : Nat) (s : State) : Result :=
  match s.readClkRefusal h n with
  | some r => .refused r
  | none => s.begin.readClk

/-- STOP_CLK (R128). -/
def execStopClk (h : Line) (s : State) : Result :=
  match stopClkRefusal h with
  | some r => .refused r
  | none => .next (s.begin.whenCompletes opStopClk fun t => t.stopClk h)

/-- SAMPLE_EDGE (R129). -/
def execSampleEdge (s : State) : Result := s.begin.sampleEdge

end Sys2Proof.Machine
end

