-- ==== Sys2Proof/Machine/Fsm.lean ====
section
/-!
DEFINITION. The actions of the FSM (42_transmitter_fsm.md R93 to R105) and the meanings of the codes of
`st` and `xs`.  An action is what the FSM does when its registers hold the code; which code they hold is
read by the fetch (Machine/Fetch.lean), so an action does not test it again; a reserved code in either
register stops every action (R75).
-/

namespace Sys2Proof.Machine

/-- IDLE: one poll (R96).  `stop` is read first, then the cell once. -/
def State.idle (s : State) : State :=
  if s.stopRead = true then { s with st := stExitedCode }
  else if s.cellRead ≠ s.lastObs then
    { s with
      cap := some s.cellRead
      lastObs := s.cellRead
      cycErr := false
      st := stMarkerAssertedCode }
  else { s with st := stIdleCode }

/-- MARKER_ASSERTED, once the DRIVER completes its call (R97). -/
def State.assertMarker (s : State) : State :=
  let t := (s.writeImm true).noteCall opWriteImm s.writeImmStatus
  { t with tStart := some (Config.freeTime s.tick), xs := xsArmCode, st := stXferCode }

/-- MARKER_DEASSERTED, once the DRIVER completes its call (R103). -/
def State.deassertMarker (s : State) : State :=
  { (s.writeImm false).noteCall opWriteImm s.writeImmStatus with st := stVerifiedCode }

/-- XFER ARM for the captured value `v`, once the DRIVER completes its call (R98). -/
def State.armWrite (s : State) (v : Word) : State :=
  let t := (s.writeClk (encoderSeq v s.params.R)).noteCall opWriteClk s.writeClkStatus
  { t with encValue := v, xs := xsStartCode }

/-- XFER ARM (R98). -/
def State.xferArm (s : State) : Result :=
  match s.cap with
  | none => .fault (.unwritten .cap)
  | some v =>
    match encoderRefusal s.params.R with
    | some r => .refused r
    | none => .next (s.whenCompletes opWriteClk fun t => t.armWrite v)

/-- XFER START (R99); the count it asks for is 68·R+1, so R = 0 is refused (R72). -/
def State.xferStart (s : State) : Result :=
  s.withRepeat (.next { s.readClkIssue with busy := true, xs := xsWaitCode })

/-- XFER WAIT: enabled only when the engine has stopped and the DRIVER returns (R95, R100). -/
def State.xferWait (s : State) : Result :=
  if s.engRun || !s.readReturns then .next s
  else
    s.withRepeat (s.readClkComplete.andThen fun t =>
      .next { t.noteCall opReadClk s.readCall.status with busy := false, xs := xsStopWCode })

/-- XFER STOP_W, once the DRIVER completes its call (R101). -/
def State.stopWriteChannel (s : State) : State :=
  { (s.stopClk .dataOut).noteCall opStopClk (s.stopClkStatus .dataOut) with xs := xsStopRCode }

/-- XFER STOP_R, once the DRIVER completes its call; `xs` stays (R102). -/
def State.stopReadChannel (s : State) : State :=
  { (s.stopClk .dataIn).noteCall opStopClk (s.stopClkStatus .dataIn) with st := stMarkerDeassertedCode }

/-- VERIFIED with the captured value, the read-back and the start time at hand (R104). -/
def State.verify (s : State) (v : Word) (q : Digits) (t0 : Time) : State :=
  let got := decoderValue q s.params.R
  let t := (s.verifyFlags q v).raiseMismatch v got
  { t with
    rcv := some got
    decRb := q
    record := some
      { sent := v
        received := got
        matched := decide (got = v)
        frameOk := decoderFrameOk q s.params.R
        driverErr := s.cycErr
        latency := Config.freeLatency s.tick t0 }
    st := stIdleCode }

/-- VERIFIED (R104). -/
def State.verified (s : State) : Result :=
  match s.cap with
  | none => .fault (.unwritten .cap)
  | some v =>
    match allWritten s.rx with
    | none => .fault (.unwritten .rx)
    | some q =>
      match s.tStart with
      | none => .fault (.unwritten .tStart)
      | some t0 =>
        match decoderRefusal q s.params.R with
        | some r => .refused r
        | none => .next (s.verify v q t0)

/-! The codes of `st`. -/

/-- st.IDLE (R96). -/
def execStIdle (s : State) : Result := s.fsmAction (.next s.begin.idle)

/-- st.MARKER_ASSERTED (R97). -/
def execStMarkerAsserted (s : State) : Result :=
  s.fsmAction (.next (s.begin.whenCompletes opWriteImm State.assertMarker))

/-- st.XFER: the action of the sub-state in `xs` (R93, R98 to R102); a reserved code faults (R75). -/
def execStXfer (s : State) : Result :=
  s.fsmAction <|
    match s.xs.toNat with
    | 0 => s.begin.xferArm
    | 1 => s.begin.xferStart
    | 2 => s.begin.xferWait
    | 3 => .next (s.begin.whenCompletes opStopClk State.stopWriteChannel)
    | 4 => .next (s.begin.whenCompletes opStopClk State.stopReadChannel)
    | _ => .fault .reservedState

/-- st.MARKER_DEASSERTED (R103). -/
def execStMarkerDeasserted (s : State) : Result :=
  s.fsmAction (.next (s.begin.whenCompletes opWriteImm State.deassertMarker))

/-- st.VERIFIED (R104). -/
def execStVerified (s : State) : Result := s.fsmAction s.begin.verified

/-- st.EXITED: no step; the FSM stays (R105). -/
def execStExited (s : State) : Result := s.fsmAction (.next s.begin)

/-- The code 3'b110 of `st` is reserved (R75). -/
def execStReserved6 (_ : State) : Result := .fault .reservedState

/-- The code 3'b111 of `st` is reserved (R75). -/
def execStReserved7 (_ : State) : Result := .fault .reservedState

/-! The codes of `xs`. -/

/-- xs.ARM (R98). -/
def execXsArm (s : State) : Result := s.fsmAction s.begin.xferArm

/-- xs.START (R99). -/
def execXsStart (s : State) : Result := s.fsmAction s.begin.xferStart

/-- xs.WAIT (R100). -/
def execXsWait (s : State) : Result := s.fsmAction s.begin.xferWait

/-- xs.STOP_W (R101). -/
def execXsStopW (s : State) : Result :=
  s.fsmAction (.next (s.begin.whenCompletes opStopClk State.stopWriteChannel))

/-- xs.STOP_R (R102). -/
def execXsStopR (s : State) : Result :=
  s.fsmAction (.next (s.begin.whenCompletes opStopClk State.stopReadChannel))

/-- The code 3'd5 of `xs` is reserved (R75). -/
def execXsReserved5 (_ : State) : Result := .fault .reservedState

/-- The code 3'd6 of `xs` is reserved (R75). -/
def execXsReserved6 (_ : State) : Result := .fault .reservedState

/-- The code 3'd7 of `xs` is reserved (R75). -/
def execXsReserved7 (_ : State) : Result := .fault .reservedState

end Sys2Proof.Machine
end

