-- ==== Sys2Proof/Machine/Shared.lean ====
section
/-!
DEFINITION. The meanings of CELL_SET, CELL_GET and STOP_REQ (43_shared_cell.md R114 to R116) and of
RESET (70_reset_and_hazards.md R151).
-/

namespace Sys2Proof.Machine

/-- CELL_SET (R114). -/
def execCellSet (v : Word) (s : State) : Result := .next (s.begin.cellWrite v)

/-- CELL_GET (R115): the value is returned; reading changes nothing. -/
def execCellGet (s : State) : Result := .next { s.begin with ret := .value s.begin.cellRead }

/-- STOP_REQ (R116). -/
def execStopReq (s : State) : Result := .next s.begin.stopWrite

/-- The state after RESET (R151): the table of R42; the parameters, the environment, the queue, the
draw counter and the gap before the sample clock's next edge are outside the block; the dirty flags are draws after a reset during a transfer. -/
def State.afterReset (s : State) : State :=
  { State.atReset s.params (Config.freeDout s.tick) with
    env := s.env
    queue := s.queue
    tick := s.tick
    edgeGap := s.edgeGap
    wrDirty := s.interrupted && Config.freeWrDirty s.tick
    rdDirty := s.interrupted && Config.freeRdDirty s.tick }

/-- RESET (R151). -/
def execReset (s : State) : Result := .next s.begin.afterReset

end Sys2Proof.Machine
end

