-- ==== Sys2Proof/Machine/Units.lean ====
section
/-!
DEFINITION. The meanings of ENCODE, DECODE and FRAME_CHECK (R81, R87, R90) and of the two operation ids
that name no operation (R77).
-/

namespace Sys2Proof.Machine

/-- ENCODE (R81): present `v` at `enc_value`; return the frame word and the physical sequence. -/
def execEncode (v : Word) (s : State) : Result :=
  match encoderRefusal s.params.R with
  | some r => .refused r
  | none =>
    .next { s.begin with encValue := v, ret := .frame (encoderFrame v) (encoderSeq v s.params.R) }

/-- DECODE (R87): present `q` at `dec_rb`; return the payload value. -/
def execDecode (q : Digits) (s : State) : Result :=
  match decoderRefusal q s.params.R with
  | some r => .refused r
  | none => .next { s.begin with decRb := q, ret := .value (decoderValue q s.params.R) }

/-- FRAME_CHECK (R90): present `q` at `dec_rb`; return whether the frame digits are right. -/
def execFrameCheck (q : Digits) (s : State) : Result :=
  match decoderRefusal q s.params.R with
  | some r => .refused r
  | none => .next { s.begin with decRb := q, ret := .bit (decoderFrameOk q s.params.R) }

/-- The id 4'hE names no operation (R77). -/
def execReservedE (_ : State) : Result := .refused (.reservedOperation opReservedE)

/-- The id 4'hF names no operation (R77). -/
def execReservedF (_ : State) : Result := .refused (.reservedOperation opReservedF)

end Sys2Proof.Machine
end

