-- ==== Sys2Proof/Machine/Dispatch.lean ====
section
/-!
DEFINITION. One arm per row of spec/opcode_table.json, each a direct call of its meaning.
-/

namespace Sys2Proof.Machine

def exec (i : Instr) (s : State) : Host.Outcome State Fault Refusal :=
  match i with
  | .encode v => Sys2Proof.Machine.execEncode v s
  | .decode q => Sys2Proof.Machine.execDecode q s
  | .frameCheck q => Sys2Proof.Machine.execFrameCheck q s
  | .cellSet v => Sys2Proof.Machine.execCellSet v s
  | .cellGet => Sys2Proof.Machine.execCellGet s
  | .stopReq => Sys2Proof.Machine.execStopReq s
  | .openLine l => Sys2Proof.Machine.execOpenLine l s
  | .configure h c => Sys2Proof.Machine.execConfigure h c s
  | .writeImm h b => Sys2Proof.Machine.execWriteImm h b s
  | .writeClk h bits => Sys2Proof.Machine.execWriteClk h bits s
  | .readClk h n => Sys2Proof.Machine.execReadClk h n s
  | .stopClk h => Sys2Proof.Machine.execStopClk h s
  | .sampleEdge => Sys2Proof.Machine.execSampleEdge s
  | .reset => Sys2Proof.Machine.execReset s
  | .reservedE => Sys2Proof.Machine.execReservedE s
  | .reservedF => Sys2Proof.Machine.execReservedF s
  | .stIdle => Sys2Proof.Machine.execStIdle s
  | .stMarkerAsserted => Sys2Proof.Machine.execStMarkerAsserted s
  | .stXfer => Sys2Proof.Machine.execStXfer s
  | .stMarkerDeasserted => Sys2Proof.Machine.execStMarkerDeasserted s
  | .stVerified => Sys2Proof.Machine.execStVerified s
  | .stExited => Sys2Proof.Machine.execStExited s
  | .stReserved6 => Sys2Proof.Machine.execStReserved6 s
  | .stReserved7 => Sys2Proof.Machine.execStReserved7 s
  | .xsArm => Sys2Proof.Machine.execXsArm s
  | .xsStart => Sys2Proof.Machine.execXsStart s
  | .xsWait => Sys2Proof.Machine.execXsWait s
  | .xsStopW => Sys2Proof.Machine.execXsStopW s
  | .xsStopR => Sys2Proof.Machine.execXsStopR s
  | .xsReserved5 => Sys2Proof.Machine.execXsReserved5 s
  | .xsReserved6 => Sys2Proof.Machine.execXsReserved6 s
  | .xsReserved7 => Sys2Proof.Machine.execXsReserved7 s

end Sys2Proof.Machine
end

