-- ==== Sys2Proof/Machine/Fetch.lean ====
section
/-!
DEFINITION. What the machine does next (20_memory.md R55, 42_transmitter_fsm.md R93, R95): the head of
what the outside world has queued, or else a turn that nothing constrains; and the instruction that turn
fetches.
-/

namespace Sys2Proof.Machine

/-- Under DRIVER_COMPLETES the sample clock keeps giving edges while the SAMPLER runs (R121): the next turn is
an edge once the gap before it has run out. -/
def State.clockDue (s : State) : Bool := s.env.driverCompletes && s.engRun && s.edgeGap == 0

/-- The next thing to happen: the head of the queue, an edge the sample clock owes, or a free turn (R55,
R118, R121). -/
def State.nextFetch (s : State) : Fetch :=
  match s.queue with
  | [] => .turn (if s.clockDue then .sampler else Config.freeTurn s.tick)
  | f :: _ => f

/-- The gap after a turn that nothing has queued: one less, or, once it has run out, a fresh finite one. -/
def State.nextGap (s : State) : Nat := if s.edgeGap = 0 then Config.freeGap s.tick else s.edgeGap - 1

/-- The turn taken: the queue without its head, or, where it is empty, the gap counted down. -/
def State.takeFetch (s : State) : State :=
  { s with
    queue := s.queue.tail
    edgeGap := if s.queue.isEmpty then s.nextGap else s.edgeGap }

/-- The call the boot sequence makes next (R152). -/
def State.bootCall (s : State) : Option Instr :=
  match s.boot with
  | .openMarker => some (.openLine .marker)
  | .openDataOut => some (.openLine .dataOut)
  | .openDataIn => some (.openLine .dataIn)
  | .configureDataOut =>
    some (.configure .dataOut
      ⟨s.params.sampleRate, s.params.clockEdge, physLen s.params.R, .startOf .dataIn⟩)
  | .configureDataIn =>
    some (.configure .dataIn ⟨s.params.sampleRate, s.params.clockEdge, rbLen s.params.R, .none⟩)
  | .released => none

/-- What a turn fetches: an instruction, nothing (the agent has no step now), or a refusal. -/
inductive Fetched
  | instr (i : Instr)
  | idle
  | refused (e : Refusal)
  deriving DecidableEq, Repr

/-- The decoder's answer as a fetch. -/
def Fetched.ofDecode : Except DecodeError Instr → Fetched
  | .ok i => .instr i
  | .error e => .refused (.undecodable e)

/-- The instruction of an agent's turn.  The FSM fetches the code in `st`, and only once boot has
released it (R93, R152). -/
def State.turnInstr (s : State) : Turn → Fetched
  | .producerSet v => .instr (.cellSet v)
  | .producerStop => .instr .stopReq
  | .reset => .instr .reset
  | .boot =>
    match s.bootCall with
    | some i => .instr i
    | none => .idle
  | .fsm => if s.boot = .released then .ofDecode (decodeCode (.state s.st)) else .idle
  | .sampler => .instr .sampleEdge

/-- What one thing that happens fetches. -/
def State.fetchInstr (s : State) : Fetch → Fetched
  | .stimulus w => .ofDecode (decodeStimulus w)
  | .word w => .ofDecode (decodeOp w)
  | .turn t => s.turnInstr t

/-- The instruction the machine runs next.  Illegal parameters are refused, whatever happens (R72). -/
def State.fetched (s : State) : Fetched :=
  if s.params.wf then s.fetchInstr s.nextFetch else .refused .badRepeatFactor

/-- Put an operation word at the head of the queue. -/
def State.pushWord (s : State) (w : OpWord) : State := { s with queue := .word w :: s.queue }

end Sys2Proof.Machine
end

