-- ==== Sys2Proof/Machine/Step.lean ====
section
/-!
DEFINITION. One step of the interleaving (20_memory.md R55): the queue's head, an edge the sample clock
owes, or a free turn, is taken and its instruction run.  A turn of an agent that has no step now changes nothing but
the pulses.
-/

namespace Sys2Proof.Machine

/-- One step of the machine. -/
def step (s : State) : Host.Outcome State Fault Refusal :=
  match s.fetched with
  | .instr i => exec i s.takeFetch
  | .idle => .next s.takeFetch.begin
  | .refused e => .refused e

/-- The state whose very next step runs the instruction of a bare table row (log entry 5). -/
def State.withFetchWord (s : State) (nbits w : Nat) : State :=
  s.pushWord (tableWord s.params (w % 2 ^ nbits))

end Sys2Proof.Machine
end

