-- ==== Sys2Proof/Machine/Script.lean ====
section
/-!
DEFINITION. Stimulus scripts (30_encoding.md R78, R79): each directive as a run of steps, or as a change
of the environment's premises.  The notation is the spec's own and no part of the block.
-/

namespace Sys2Proof.Machine

/-- One directive of a stimulus script (R79). -/
inductive Directive
  | reset
  | set (v : Word)
  | stop
  | step (n : Nat)
  | run
  | driverOk
  | driverFail (op : OpId) (s : DriverStatus)
  | loopbackIdeal
  | flip (j : Nat)
  | pre (d : Bool)
  deriving DecidableEq, Repr

/-- Take one step with a given thing happening next. -/
def State.happen (s : State) (f : Fetch) : Result := step { s with queue := f :: s.queue }

/-- `n` turns of one agent. -/
def State.turns (s : State) (t : Turn) : Nat → Result
  | 0 => .next s
  | n + 1 => (s.happen (.turn t)).andThen fun s' => s'.turns t n

/-- The sample edges a step in XFER WAIT has to await (R95, R79 "the SAMPLER running as needed"). -/
def State.awaitedEdges (s : State) : Nat :=
  if s.st = stXferCode ∧ s.xs = xsWaitCode ∧ s.engRun = true then rbLen s.params.R - s.k else 0

/-- One FSM step, after the sample edges it awaits. -/
def State.fsmTurn (s : State) : Result :=
  (s.turns .sampler s.awaitedEdges).andThen fun s' => s'.happen (.turn .fsm)

/-- `n` FSM steps (R79 STEP).  A turn in which the FSM has no enabled step (a call the DRIVER does not complete,
EXITED, boot unfinished) counts as one of the `n`: DESIGN CHOICE, log entry 16. -/
def State.fsmTurns (s : State) : Nat → Result
  | 0 => .next s
  | n + 1 => s.fsmTurn.andThen fun s' => s'.fsmTurns n

/-- The IDLE step taken now sees no change (R96). -/
def State.seesNoChange (s : State) : Bool :=
  s.st == stIdleCode && !s.stop && s.cell == s.lastObs

/-- RUN: step until an IDLE step has seen no change, or the FSM is in EXITED (R79); at most `fuel` FSM
steps, since a hung call may keep a run from ending (R121).  DESIGN CHOICE, log entry 16: the fuel, and that
before boot has released the FSM an empty turn in IDLE with nothing to see ends the run. -/
def State.runToIdle (s : State) : Nat → Result
  | 0 => .next s
  | fuel + 1 =>
    if s.st = stExitedCode then .next s
    else if s.seesNoChange then s.fsmTurn
    else s.fsmTurn.andThen fun s' => s'.runToIdle fuel

/-- `DRIVER OK`: DRIVER_OK and DRIVER_COMPLETES hold from now on (R79).  DESIGN CHOICE, log entry 16: it also takes
back the failure directives still pending, and a READ_CLK outstanding now, which is no later call, completes but
keeps the status drawn at its issue. -/
def State.driverNowOk (s : State) : State :=
  { s with env := { s.env with driverOk := true, driverCompletes := true, fails := [] } }

/-- `DRIVER FAIL op s`, for s ≠ 0 (R79).  DESIGN CHOICE, log entry 16: several for one
id are used up oldest first, and one whose id is no driver call is accepted and stays pending. -/
def State.driverNextFails (s : State) (op : OpId) (st : DriverStatus) : Result :=
  if st = 0 then .refused .badDirective
  else .next { s with env := { s.env with fails := s.env.fails ++ [(op, st)] } }

/-- `FLIP j`: in the next transfer sample j is inverted (R79), for j below 68·R+1 (R66).  DESIGN CHOICE, log
entry 16: the next transfer is the one whose read is issued next. -/
def State.flipSample (s : State) (j : Nat) : Result :=
  if j < rbLen s.params.R then .next { s with env := { s.env with flipNext := s.env.flipNext ++ [j] } }
  else .refused .badDirective

/-- `PRE d`: in the next transfer the line level before edge 0 is d (R79).  It is pending until a read is
issued, whatever comes between, a reset included, and then fixes sample 0 with or without LOOPBACK_IDEAL
(`State.presetSample`); with no read outstanding the line has the level at once, as the start states of
95_test_vectors.md have it.  DESIGN CHOICE, log entry 16: the spec leaves open which of two
PRE directives holds and which transfer is the next one while one is in flight; the later PRE holds, and it
holds for the transfer whose read is issued next. -/
def State.presetLine (s : State) (d : Bool) : State :=
  { s with dout := if s.busy || s.rdCall.isSome then s.dout else d, env := { s.env with pre := some d } }

/-- Run one directive (R79).  DESIGN CHOICE, log entry 16: the boot of `RESET` is five boot turns, and a call the
DRIVER does not complete uses one of them up. -/
def Directive.perform (fuel : Nat) (d : Directive) (s : State) : Result :=
  match d with
  | .reset => (s.happen (.stimulus (stimulusWord opReset 0))).andThen fun s' => s'.turns .boot 5
  | .set v => s.happen (.stimulus (stimulusWord opCellSet v))
  | .stop => s.happen (.stimulus (stimulusWord opStopReq 0))
  | .step n => s.fsmTurns n
  | .run => s.runToIdle fuel
  | .driverOk => .next s.driverNowOk
  | .driverFail op st => s.driverNextFails op st
  | .loopbackIdeal => .next { s with env := { s.env with loopback := true } }
  | .flip j => s.flipSample j
  | .pre d => .next (s.presetLine d)

/-- Run a script, directive by directive (R79). -/
def runScript (fuel : Nat) : List Directive → State → Result
  | [], s => .next s
  | d :: ds, s => (d.perform fuel s).andThen (runScript fuel ds)

end Sys2Proof.Machine
end

