-- ==== Sys2Proof/Safety.lean ====
section
/-!
DEFINITION. What counts as a good state and a good run: the premises the spec names, when the FSM has a
step (R95), when a run is final (R161), the order of the FSM's states (R107), which step raises which
error (R139), and the invariants the claims are about.
-/

namespace Sys2Proof.Machine

/-! Premises. -/

/-- DRIVER_OK: every call succeeds (R120), so no failure directive is pending (R79). -/
def State.driverOk (s : State) : Prop := s.env.driverOk = true ∧ s.env.fails = []

/-- DRIVER_COMPLETES: every call completes, and the sample clock keeps giving edges while the SAMPLER runs
(R121; `State.completes`, `State.readReturns` and `State.clockDue` give the premise its force). -/
def State.driverCompletes (s : State) : Prop := s.env.driverCompletes = true

/-- Both premises of the DRIVER (R120, R121). -/
def State.driverGood (s : State) : Prop := s.driverOk ∧ s.driverCompletes

/-- LOOPBACK_IDEAL, with no sample inverted (R130, R79). -/
def State.loopbackGood (s : State) : Prop :=
  s.env.loopback = true ∧ s.env.flipNow = [] ∧ s.env.flipNext = []

/-- Nothing but the block's own agents acts: the queue holds no bare operation word, so every driver
call is made by boot or by the FSM (R17, R55). -/
def State.blockRun (s : State) : Prop := ∀ w, Fetch.word w ∉ s.queue

/-- The step about to be taken is not a reset. -/
def State.noReset (s : State) : Prop := s.fetched ≠ .instr .reset

/-- The value the PRODUCER publishes in the step about to be taken, if it does (R114). -/
def State.publishes (s : State) : List Word :=
  match s.fetched with
  | .instr (.cellSet v) => [v]
  | _ => []

/-- PRODUCER_MONOTONIC, over the values a run publishes: each is strictly greater than every earlier one
(R117). -/
def producerMonotonic (published : List Word) : Prop := published.Pairwise fun v w => v.toNat < w.toNat

/-- A one-step form of PRODUCER_MONOTONIC: a published value exceeds the cell's content.  DESIGN CHOICE, log
entry 25: R117 compares a value with every earlier published one, in the whole run; this form compares it
with the cell, so it also bounds the first value by CELL_INIT, and it forgets what came before a reset.  The
rule itself is `producerMonotonic`. -/
def State.publishesHigher (s : State) : Prop :=
  ∀ v, s.fetched = .instr (.cellSet v) → s.cell.toNat < v.toNat

/-- The value a step captures for a transfer: the one the transfer sends (R96, R112). -/
def State.captures (s t : State) : List Word :=
  if s.st = stIdleCode ∧ t.st = stMarkerAssertedCode then t.cap.toList else []

/-- A run of steps, with the values it publishes and the values its transfers send, each in order. -/
inductive Run : State → List Word → List Word → State → Prop
  | done (s) : Run s [] [] s
  | next {s t u published sent} : step s = .next t → Run t published sent u →
      Run s (s.publishes ++ published) (s.captures t ++ sent) u

/-- The status a call of the boot sequence returned in the step from `s` to `t`, if one returned (R152): the
step, no reset, that moves the boot sequence on. -/
def State.bootStatuses (s t : State) : List DriverStatus :=
  if t.boot = s.boot then []
  else match t.ret with
    | .opened st _ => [st]
    | .status st => [st]
    | _ => []

/-- A run without a reset, with the statuses its calls of the boot sequence returned, in order (R152). -/
inductive BootRun : State → List DriverStatus → State → Prop
  | done (s) : BootRun s [] s
  | next {s t u statuses} : s.noReset → step s = .next t → BootRun t statuses u →
      BootRun s (s.bootStatuses t ++ statuses) u

/-- BOOT_DONE (R153), over the calls that boot has made since the reset: all five have returned, each with
status 0. -/
def bootDone (statuses : List DriverStatus) : Prop := statuses = List.replicate 5 0

/-- BOOT_DONE as the state shows it: boot has released the FSM, and every channel has its handle and, where it
is clocked, the block's configuration (R153).  In the block's own runs from a reset it says the same as
`bootDone` (statement BootReleasesFsm). -/
def State.bootGood (s : State) : Prop := s.boot = .released ∧ ∀ l, s.usable l = true

/-! The FSM. -/

/-- The call the FSM's step makes or completes in its state (R96 to R105). -/
def State.fsmCall (s : State) : Option OpId :=
  match s.st.toNat, s.xs.toNat with
  | 1, _ => some opWriteImm
  | 2, 0 => some opWriteClk
  | 2, 3 => some opStopClk
  | 2, 4 => some opStopClk
  | 3, _ => some opWriteImm
  | _, _ => none

/-- The call an action makes and completes in its own step (R94); READ_CLK is the exception. -/
def ownCall : Instr → Option OpId
  | .openLine _ => some opOpenLine
  | .configure _ _ => some opConfigure
  | .writeImm _ _ | .stMarkerAsserted | .stMarkerDeasserted => some opWriteImm
  | .writeClk _ _ | .xsArm => some opWriteClk
  | .stopClk _ | .xsStopW | .xsStopR => some opStopClk
  | .encode _ | .decode _ | .frameCheck _ | .cellSet _ | .cellGet | .stopReq => none
  | .readClk _ _ | .sampleEdge | .reset | .reservedE | .reservedF => none
  | .stIdle | .stXfer | .stVerified | .stExited | .stReserved6 | .stReserved7 => none
  | .xsStart | .xsWait | .xsReserved5 | .xsReserved6 | .xsReserved7 => none

/-- The FSM has an enabled step (R95). -/
def State.fsmEnabled (s : State) : Bool :=
  s.codesLegal && s.st != stExitedCode &&
    (match s.fsmCall with
      | some op => s.begin.completes op
      | none => true) &&
    (!(s.st == stXferCode && s.xs == xsWaitCode) || (!s.engRun && s.begin.readReturns))

/-- A run is final (R161); a state with a reserved code is not (R75). -/
def State.final (s : State) : Bool := s.codesLegal && s.st == stExitedCode && !s.busy && !s.engRun

/-- The state and sub-state that follow, when the FSM has an enabled step that is not in IDLE (R107). -/
def fsmSuccessor (st xs : Code3) : Code3 × Code3 :=
  match st.toNat, xs.toNat with
  | 1, _ => (stXferCode, xsArmCode)
  | 2, 0 => (stXferCode, xsStartCode)
  | 2, 1 => (stXferCode, xsWaitCode)
  | 2, 2 => (stXferCode, xsStopWCode)
  | 2, 3 => (stXferCode, xsStopRCode)
  | 2, 4 => (stMarkerDeassertedCode, xs)
  | 3, _ => (stVerifiedCode, xs)
  | 4, _ => (stIdleCode, xs)
  | _, _ => (st, xs)

/-- What the error output may carry after an instruction: the table of R139.  XFER's row is that of its
sub-state (`actionRow`). -/
def mayRaise : Instr → ErrorEvent → Prop
  | .openLine _, e => e.code = 1#2 ∧ e.call = opOpenLine
  | .configure _ _, e => e.code = 1#2 ∧ e.call = opConfigure
  | .stMarkerAsserted, e => e.code = 1#2 ∧ e.call = opWriteImm
  | .xsArm, e => e.code = 1#2 ∧ e.call = opWriteClk
  | .xsWait, e => e.code = 1#2 ∧ e.call = opReadClk
  | .xsStopW, e => e.code = 1#2 ∧ e.call = opStopClk
  | .xsStopR, e => e.code = 1#2 ∧ e.call = opStopClk
  | .stMarkerDeasserted, e => e.code = 1#2 ∧ e.call = opWriteImm
  | .stVerified, e => e.code = 2#2 ∧ e.call = opDecode
  | .encode _, _ | .decode _, _ | .frameCheck _, _ => False
  | .cellSet _, _ | .cellGet, _ | .stopReq, _ | .reset, _ => False
  | .writeImm _ _, _ | .writeClk _ _, _ | .readClk _ _, _ | .stopClk _, _ | .sampleEdge, _ => False
  | .reservedE, _ | .reservedF, _ => False
  | .stIdle, _ | .stXfer, _ | .stExited, _ | .stReserved6, _ | .stReserved7, _ => False
  | .xsStart, _ | .xsReserved5, _ | .xsReserved6, _ | .xsReserved7, _ => False

/-- The row of the action an instruction runs: for XFER, the row of the sub-state in `xs` (R93). -/
def State.actionRow (s : State) (i : Instr) : Instr :=
  if i = .stXfer then decodeSub s.xs else i

/-! Invariants. -/

/-- The FSM is in XFER after START, or in MARKER_DEASSERTED or VERIFIED: the read of this transfer has
been issued. -/
def State.afterStart (s : State) : Prop :=
  (s.st = stXferCode ∧ 2 ≤ s.xs.toNat) ∨ s.st = stMarkerDeassertedCode ∨ s.st = stVerifiedCode

/-- The FSM is in a transfer: any state but IDLE and EXITED. -/
def State.inTransfer (s : State) : Prop := s.st ≠ stIdleCode ∧ s.st ≠ stExitedCode

/-- The registers hold legal codes, the buffers their fixed lengths, the index its range, and an armed
write its digits (R22, R23, R25, R26, R27, R75). -/
structure LegalState (s : State) : Prop where
  st_legal : s.st.toNat ≤ 5
  xs_legal : s.xs.toNat ≤ 4
  tx_length : ∀ t, s.tx = some t → t.length = physLen s.params.R
  rx_length : s.rx.length = rbLen s.params.R
  k_range : s.k ≤ rbLen s.params.R
  running_k : s.engRun = true → s.k ≤ physLen s.params.R
  armed_tx : s.wrArmed = true → s.tx ≠ none

/-- Every register a rule reads has been written (R21): the captured value and the start time through a
transfer, and every digit of `rx` the edges so far have sampled. -/
structure WrittenBeforeRead (s : State) : Prop where
  legal : LegalState s
  repeat_legal : 1 ≤ s.params.R
  block_run : s.blockRun
  cap_written : s.inTransfer → s.cap ≠ none
  start_written : s.inTransfer → s.st ≠ stMarkerAssertedCode → s.tStart ≠ none
  running_wait : s.engRun = true → s.st = stXferCode ∧ s.xs = xsWaitCode
  edges_written : s.afterStart → ∀ j, j < s.k → ∃ d, s.rx[j]? = some (some d)
  edges_done : s.afterStart → s.engRun = false → s.k = rbLen s.params.R

/-- The marker line is high exactly in XFER and MARKER_DEASSERTED, when every call succeeds (R108; DRIVER_OK,
whether or not the calls complete). -/
structure MarkerBracket (s : State) : Prop where
  written : WrittenBeforeRead s
  driver : s.driverOk
  no_preset : s.env.pre = none
  marker_open : s.boot ≠ .openMarker → s.hMarker ≠ none
  released_first : s.boot ≠ .released → s.st = stIdleCode
  bracket : s.marker = true ↔ s.st = stXferCode ∨ s.st = stMarkerDeassertedCode

/-- How many calls of the boot sequence have been made (R152). -/
def BootPhase.index : BootPhase → Nat
  | .openMarker => 0
  | .openDataOut => 1
  | .openDataIn => 2
  | .configureDataOut => 3
  | .configureDataIn => 4
  | .released => 5

/-- A transfer under DRIVER_OK, DRIVER_COMPLETES and LOOPBACK_IDEAL on clean channels reads back what it
sends (R113, R133): the armed digits are those of the captured value, each sample after the first is the
digit before it, and no call has failed. -/
structure RoundTrip (s : State) : Prop where
  written : WrittenBeforeRead s
  driver : s.driverGood
  loopback : s.loopbackGood
  clean : s.wrDirty = false ∧ s.rdDirty = false
  boot_marker : 1 ≤ s.boot.index → s.usable .marker = true
  boot_dout : 2 ≤ s.boot.index → s.hDout ≠ none
  boot_din : 3 ≤ s.boot.index → s.hDin ≠ none
  boot_write : 4 ≤ s.boot.index → s.usable .dataOut = true
  boot_read : 5 ≤ s.boot.index → s.usable .dataIn = true
  released_first : s.boot ≠ .released → s.st = stIdleCode
  no_error : s.inTransfer → s.cycErr = false
  armed : ∀ v, s.cap = some v → s.st = stXferCode → s.xs = xsStartCode ∨ s.xs = xsWaitCode →
    s.wrArmed = true ∧ s.lateWrite = false ∧ s.tx = some (encoderSeq v s.params.R)
  read_issued : s.st = stXferCode → s.xs = xsWaitCode → ∃ c, s.rdCall = some c ∧ c.status = 0
  line : ∀ v, s.cap = some v → s.st = stXferCode → s.xs = xsWaitCode → 1 ≤ s.k →
    (encoderSeq v s.params.R)[min s.k (physLen s.params.R) - 1]? = some s.dout
  samples : ∀ v, s.cap = some v → s.afterStart → ∀ j, 1 ≤ j → j < s.k →
    s.rx[j]? = ((encoderSeq v s.params.R)[j - 1]?).map some

/-- The last observed value never exceeds the cell's (R112, under PRODUCER_MONOTONIC). -/
def State.observedBelow (s : State) : Prop := s.lastObs.toNat ≤ s.cell.toNat

/-- The state after reset with the script's `DRIVER OK` and `LOOPBACK IDEAL` in force (R79). -/
def State.idealReset (p : Params) (d : Bool) : State :=
  { State.atReset p d with
    env := { Env.free with driverOk := true, driverCompletes := true, loopback := true } }

end Sys2Proof.Machine
end

