-- ==== Sys2Proof/Certificates/Slice0/Obligations.lean ====
section
/-!
DEFINITION. The statements about the block.  Each is a proposition for the provers; its docstring names
the rule of spec/ it formalises.  `s.begin` is the state at the start of a step: the pulses of the last step
ended, nothing returned yet, a fresh draw index; a result written as a record update of it leaves every
field not named as it was.  The fields `ret`, `tick`, `edgeGap`, `env`, `queue`, `lateWrite`, `encValue` and `decRb` carry
no register of the spec: a clause about one of them is the model's own (log entries 6, 7, 9, 11, 16, 26 and 28).
`s.codesLegal` says that `st` and `xs` hold no reserved code; with one, the FSM faults
(ReservedCodesNeverWritten).
-/

open Sys2Proof Sys2Proof.Machine

/-! Encodings. -/

/-- R78: the stimulus words are `{op, operand}` of CELL_SET, STOP_REQ and RESET, a word decodes exactly to what
encodes to it, and every word with another op is refused.  The model's own choices here: log entry 23 (that a
STOP_REQ or RESET word with an operand other than 0 does not decode). -/
def Obligations.StimulusWordsExact : Prop :=
  (∀ v, encodeStimulus (.cellSet v) = some (0x3#4 ++ v)) ∧
  encodeStimulus .stopReq = some (0x5#4 ++ 0#64) ∧ encodeStimulus .reset = some (0xD#4 ++ 0#64) ∧
  (∀ w i, decodeStimulus w = .ok i ↔ encodeStimulus i = some w) ∧
  (∀ w, stimulusOp w ≠ opCellSet → stimulusOp w ≠ opStopReq → stimulusOp w ≠ opReset →
    decodeStimulus w = .error (.illegalStimulus (stimulusOp w)))

/-- R73, R74, R76: every row of the table decodes from its code, and a code that decodes is the code of
what it decodes to.  The model's own choices here: log entry 23 (that an operation word with operands of
another form does not decode). -/
def Obligations.TableCodesRoundTrip : Prop :=
  (∀ i, decodeCode (encodeCode i) = .ok i) ∧ (∀ c i, decodeCode c = .ok i → encodeCode i = c)

/-- R73, R74, R76, R78: words written out from the tables decode to the instructions they stand for. -/
def Obligations.KnownWordsDecode : Prop :=
  decodeOp ⟨0b0011#4, .value 5⟩ = .ok (.cellSet 5) ∧
  decodeOp ⟨0b1000#4, .lineBit .marker true⟩ = .ok (.writeImm .marker true) ∧
  decodeOp ⟨0b1100#4, .none⟩ = .ok .sampleEdge ∧
  decodeState 0b001#3 = .stMarkerAsserted ∧ decodeState 0b100#3 = .stVerified ∧
  decodeSub 0b011#3 = .xsStopW ∧
  decodeStimulus 0x30000000000000005#68 = .ok (.cellSet 5) ∧
  decodeStimulus 0x50000000000000000#68 = .ok .stopReq ∧
  decodeStimulus 0xD0000000000000000#68 = .ok .reset

/-- R77: the ids 4'hE and 4'hF name no operation: their rows are refused, and so is a stimulus word that
carries one. -/
def Obligations.ReservedIdsRefused : Prop :=
  (∀ s : State, exec .reservedE s = .refused (.reservedOperation 0xE#4)) ∧
  (∀ s : State, exec .reservedF s = .refused (.reservedOperation 0xF#4)) ∧
  (∀ w, stimulusOp w = 0xE#4 ∨ stimulusOp w = 0xF#4 →
    decodeStimulus w = .error (.illegalStimulus (stimulusOp w)))

/-! ENC. -/

/-- R61, R62: the frame word's fields, its value as an integer, and the logical digits it packs. -/
def Obligations.FrameWordLayout : Prop :=
  ∀ v : Word,
    (encoderFrame v).toNat = 2 ^ 66 + 4 * v.toNat + 2 ∧
    (encoderFrame v).extractLsb' 66 2 = 0b01#2 ∧ (encoderFrame v).extractLsb' 2 64 = v ∧
    (encoderFrame v).extractLsb' 0 2 = 0b10#2 ∧
    (∀ j, j < 68 → encoderLogical v j = (encoderFrame v).getLsbD (67 - j)) ∧
    encoderLogical v 0 = false ∧ encoderLogical v 1 = true ∧
    (∀ i, i < 64 → encoderLogical v (2 + i) = v.getLsbD (63 - i)) ∧
    encoderLogical v 66 = true ∧ encoderLogical v 67 = false

/-- R82: the output length is 68·R. -/
def Obligations.EncodedLength : Prop := ∀ v R, (encoderSeq v R).length = 68 * R

/-- R83: the framing blocks and the payload blocks of every encoded value. -/
def Obligations.EncodedBlocks : Prop :=
  ∀ v R j,
    (j < R → (encoderSeq v R)[j]? = some false) ∧
    (R ≤ j → j < 2 * R → (encoderSeq v R)[j]? = some true) ∧
    (∀ i, i < 64 → (2 + i) * R ≤ j → j < (3 + i) * R →
      (encoderSeq v R)[j]? = some (v.getLsbD (63 - i))) ∧
    (66 * R ≤ j → j < 67 * R → (encoderSeq v R)[j]? = some true) ∧
    (67 * R ≤ j → j < 68 * R → (encoderSeq v R)[j]? = some false)

/-- R84: for each R ≥ 1 distinct values give distinct sequences, because digit (2+i)·R is v[63−i]. -/
def Obligations.EncodeInjective : Prop :=
  ∀ R, 1 ≤ R →
    (∀ v w, encoderSeq v R = encoderSeq w R → v = w) ∧
    (∀ v i, i < 64 → (encoderSeq v R)[(2 + i) * R]? = some (v.getLsbD (63 - i)))

/-- ENCODE (R81): it completes for every value and every R ≥ 1, returning the frame word and the sequence
whose digit j is bit 67 − j div R of it, and the ports `enc_frame` and `enc_seq` show them (R36); nothing but
the unit's input port changes.  The model's own choices here: log entries 6, 11. -/
def Obligations.EncodeResult : Prop :=
  ∀ v (s : State), 1 ≤ s.params.R →
    ∃ (P : Digits) (t : State), exec (.encode v) s = .next t ∧
      t = { s.begin with encValue := v, ret := .frame (0b01#2 ++ v ++ 0b10#2) P } ∧
      t.encFrame = 0b01#2 ++ v ++ 0b10#2 ∧ t.encSeq = P ∧
      P.length = 68 * s.params.R ∧
      ∀ j, j < 68 * s.params.R →
        P[j]? = some ((0b01#2 ++ v ++ 0b10#2 : FrameWord).getLsbD (67 - j / s.params.R))

/-! DEC. -/

/-- R88: DECODE returns the value that ENCODE framed, for every value, every R ≥ 1 and every leading
digit.  The model's own choices here: log entries 6, 11 (the fields `ret`, `encValue` and `decRb`). -/
def Obligations.DecodeRecoversEncoded : Prop :=
  ∀ v d (s : State), 1 ≤ s.params.R →
    ∃ F P, exec (.encode v) s = .next { s.begin with encValue := v, ret := .frame F P } ∧
      exec (.decode (d :: P)) s = .next { s.begin with decRb := d :: P, ret := .value v }

/-- R91: FRAME_CHECK answers 1 on every encoded value behind any leading digit.  The model's own choices here: log
entries 6, 11 (the fields `ret` and `decRb`). -/
def Obligations.FrameCheckAcceptsEncoded : Prop :=
  ∀ v d (s : State), 1 ≤ s.params.R →
    exec (.frameCheck (d :: encoderSeq v s.params.R)) s =
      .next { s.begin with decRb := d :: encoderSeq v s.params.R, ret := .bit true }

/-- DECODE (R68, R87): on any read-back of the right length it returns the sum of its payload digits, digit
1 + (2+i)·R weighing 2^(63−i), and the port `dec_value` shows it (R37); nothing but the unit's input port
changes.  The model's own choices here: log entries 6, 11. -/
def Obligations.DecodeResult : Prop :=
  ∀ (q : Digits) (s : State), 1 ≤ s.params.R → q.length = 68 * s.params.R + 1 →
    ∃ (v : Word) (t : State), exec (.decode q) s = .next t ∧
      t = { s.begin with decRb := q, ret := .value v } ∧ t.decValue = v ∧
      v.toNat = ∑ i ∈ Finset.range 64, (q.getD (1 + (2 + i) * s.params.R) false).toNat * 2 ^ (63 - i)

/-- FRAME_CHECK (R90): it completes on any read-back of the right length and reports whether the first
digits of blocks 0, 1, 66 and 67 read 0, 1, 1, 0, and the port `dec_frame_ok` shows it (R37).  The model's own
choices here: log entries 6, 11. -/
def Obligations.FrameCheckResult : Prop :=
  ∀ (q : Digits) (s : State) b, 1 ≤ s.params.R → q.length = 68 * s.params.R + 1 →
    b = decide (q.getD 1 false = false ∧ q.getD (1 + s.params.R) false = true ∧
      q.getD (1 + 66 * s.params.R) false = true ∧ q.getD (1 + 67 * s.params.R) false = false) →
    ∃ t : State, exec (.frameCheck q) s = .next t ∧
      t = { s.begin with decRb := q, ret := .bit b } ∧ t.decFrameOk = b

/-- R70: no digit content is illegal: a read-back with any frame decodes, and only FRAME_CHECK shows a
bad one.  The model's own choices here: log entries 6, 11 (the fields `ret` and `decRb`). -/
def Obligations.BadFrameStillDecodes : Prop :=
  ∀ (q : Digits) (s : State), 1 ≤ s.params.R → q.length = 68 * s.params.R + 1 →
    (∃ v, exec (.decode q) s = .next { s.begin with decRb := q, ret := .value v }) ∧
    (¬ (q.getD 1 false = false ∧ q.getD (1 + s.params.R) false = true ∧
        q.getD (1 + 66 * s.params.R) false = true ∧ q.getD (1 + 67 * s.params.R) false = false) →
      exec (.frameCheck q) s = .next { s.begin with decRb := q, ret := .bit false })

/-- R72, R71: R = 0 is refused by ENCODE, DECODE, FRAME_CHECK, CONFIGURE of a clocked channel, WRITE_CLK,
READ_CLK and SAMPLE_EDGE, by the FSM's steps that use R, and by every step of the machine; with R ≥ 1 a wrong
length is refused by DECODE and FRAME_CHECK, and by VERIFIED. The model's own choices here: log entry 27 (which
steps refuse R = 0; R72 says only that a model must refuse it). -/
def Obligations.UnitsRefuseIllegalInput : Prop :=
  (∀ v (q : Digits) (s : State), s.params.R = 0 →
    exec (.encode v) s = .refused .badRepeatFactor ∧ exec (.decode q) s = .refused .badRepeatFactor ∧
    exec (.frameCheck q) s = .refused .badRepeatFactor) ∧
  (∀ (q : Digits) (s : State), 1 ≤ s.params.R → q.length ≠ 68 * s.params.R + 1 →
    exec (.decode q) s = .refused .badReadbackLength ∧
    exec (.frameCheck q) s = .refused .badReadbackLength) ∧
  (∀ (bits : Digits) n (s : State), s.params.R = 0 →
    exec (.writeClk .dataOut bits) s = .refused .badRepeatFactor ∧
    exec (.readClk .dataIn n) s = .refused .badRepeatFactor ∧
    (s.engRun = true → exec .sampleEdge s = .refused .badRepeatFactor)) ∧
  (∀ h c (s : State), h ≠ .marker → s.params.R = 0 →
    exec (.configure h c) s = .refused .badRepeatFactor) ∧
  (∀ s : State, s.params.R = 0 → s.codesLegal = true →
    (∀ v, s.cap = some v → exec .xsArm s = .refused .badRepeatFactor) ∧
    exec .xsStart s = .refused .badRepeatFactor ∧
    (s.engRun = false → s.begin.readReturns = true → exec .xsWait s = .refused .badRepeatFactor)) ∧
  (∀ (s : State) v (q : Digits) t0, s.codesLegal = true → s.cap = some v → s.rx = q.map some →
    s.tStart = some t0 →
    (s.params.R = 0 → exec .stVerified s = .refused .badRepeatFactor) ∧
    (1 ≤ s.params.R → q.length ≠ 68 * s.params.R + 1 →
      exec .stVerified s = .refused .badReadbackLength)) ∧
  (∀ s : State, s.params.R = 0 → step s = .refused .badRepeatFactor)

/-- R89: inverting the first digit of a payload block changes the decoded value; inverting any other digit
of it does not. -/
def Obligations.FirstSamplePolicy : Prop :=
  ∀ (q : Digits) R b t, 1 ≤ R → q.length = 68 * R + 1 → 2 ≤ b → b ≤ 65 → t < R →
    (t = 0 → decoderValue (q.set (1 + b * R + t) (!q.getD (1 + b * R + t) false)) R ≠ decoderValue q R) ∧
    (1 ≤ t → decoderValue (q.set (1 + b * R + t) (!q.getD (1 + b * R + t) false)) R = decoderValue q R)

/-! The shared cell, the stop flag and reset. -/

/-- CELL_SET, CELL_GET, STOP_REQ (R114, R115, R116): each completes in every state; a read after a write
returns the value written.  The model's own choices here: log entry 6. -/
def Obligations.SharedCellResults : Prop :=
  (∀ v (s : State), exec (.cellSet v) s = .next { s.begin with cell := v }) ∧
  (∀ s : State, exec .cellGet s = .next { s.begin with ret := .value s.cell }) ∧
  (∀ s : State, exec .stopReq s = .next { s.begin with stop := true }) ∧
  (∀ v (s : State) t, exec (.cellSet v) s = .next t → exec .cellGet t = .next { t.begin with ret := .value v })

/-- R46, R51: only CELL_SET and RESET change the cell; only STOP_REQ and RESET change the stop flag, and
only RESET clears it. -/
def Obligations.SharedWritersOnly : Prop :=
  ∀ i (s s' : State), exec i s = .next s' →
    (s'.cell ≠ s.cell → i = .reset ∨ ∃ v, i = .cellSet v ∧ s'.cell = v) ∧
    (s'.stop ≠ s.stop → i = .reset ∨ (i = .stopReq ∧ s'.stop = true)) ∧
    (s.stop = true → i ≠ .reset → s'.stop = true)

/-- RESET (R151): it completes in every state and applies the table of R42; a reset outside a transfer
clears both dirty flags, and what is outside the block (the parameters, the environment, the queue, the
counters of draws and of the sample clock) stays.  The model's own choices here: log entries 11, 17, 26, 28. -/
def Obligations.ResetResult : Prop :=
  ∀ s : State, ∃ t, exec .reset s = .next t ∧
    t.st = 0b000#3 ∧ t.xs = 0b000#3 ∧ t.lastObs = s.params.lastInit ∧ t.cap = none ∧ t.rcv = none ∧
    t.tStart = none ∧ t.tx = none ∧ t.rx = List.replicate (68 * s.params.R + 1) none ∧ t.k = 0 ∧
    t.matched = false ∧ t.frameOk = false ∧ t.cycErr = false ∧ t.wrArmed = false ∧ t.lateWrite = false ∧
    t.engRun = false ∧ t.busy = false ∧ t.rdCall = none ∧ t.hMarker = none ∧ t.hDout = none ∧ t.hDin = none ∧
    t.wCfg = none ∧ t.rCfg = none ∧ t.marker = false ∧ t.cell = s.params.cellInit ∧ t.stop = false ∧
    t.record = none ∧ t.err = none ∧ t.boot = .openMarker ∧
    ((s.st = 0b000#3 ∨ s.st = 0b101#3) → s.engRun = false → s.busy = false →
      t.wrDirty = false ∧ t.rdDirty = false) ∧
    t.params = s.params ∧ t.env = s.env ∧ t.queue = s.queue ∧ t.tick = s.tick + 1 ∧
    t.edgeGap = s.edgeGap

/-- R42: the state after reset, at any parameters. -/
def Obligations.ResetStateTable : Prop :=
  (∀ p d, let s := State.atReset p d
    s.st = 0b000#3 ∧ s.xs = 0b000#3 ∧ s.lastObs = p.lastInit ∧ s.cap = none ∧ s.rcv = none ∧
    s.tStart = none ∧ s.tx = none ∧ s.rx = List.replicate (68 * p.R + 1) none ∧ s.k = 0 ∧
    s.matched = false ∧ s.frameOk = false ∧ s.cycErr = false ∧ s.wrArmed = false ∧ s.engRun = false ∧
    s.wrDirty = false ∧ s.rdDirty = false ∧ s.busy = false ∧ s.hMarker = none ∧ s.hDout = none ∧
    s.hDin = none ∧ s.wCfg = none ∧ s.rCfg = none ∧ s.marker = false ∧ s.dout = d ∧
    s.cell = p.cellInit ∧ s.stop = false ∧ s.recValid = false ∧ s.errValid = false) ∧
  State.reset = State.atReset Params.reset (Config.freeDout 0) ∧
  Params.reset.lastInit = 0 ∧ Params.reset.cellInit = 0

/-! The digital-I/O calls. -/

/-- R120, R121, R122, R79: under DRIVER_OK a call on a usable channel returns 0, on a dirty channel too; a call
on a channel whose handle is unwritten or whose configuration is not the one R34 allows never does; a failure
directive gives the status it names; with neither the status is a draw.  Under DRIVER_COMPLETES every call
completes, an outstanding READ_CLK returns, and the sample clock keeps giving edges while the engine runs: once
the gap has run out the next turn is an edge, and each turn before it counts the gap down; no instruction changes
the gap.  Without it, and with no directive, whether a call completes or the read returns is a draw.  The model's
own choices here: log entries 7 (the draws), 8, 13, 16, 24 (0 on a dirty channel under DRIVER_OK), 26. -/
def Obligations.CallStatuses : Prop :=
  (∀ (s : State) op, s.driverOk → s.callStatus op true = 0) ∧
  (∀ (s : State) op, s.callStatus op false ≠ 0) ∧
  (∀ (s : State) op l, s.handle l = none ∨ s.clockCfg l ≠ s.params.legalCfg l →
    s.callStatus op (s.usable l) ≠ 0) ∧
  (∀ (s : State) op l h, s.handle l = some h → s.clockCfg l = s.params.legalCfg l → s.driverOk →
    s.callStatus op (s.usable l) = 0) ∧
  (∀ (s : State) op st b, s.scripted op = some st → st ≠ 0 → s.callStatus op b = st) ∧
  (∀ (s : State) op, s.scripted op = none → s.env.driverOk = false →
    s.callStatus op true = Config.freeStatus s.tick) ∧
  (∀ (s : State) op, s.scripted op = none → s.env.driverCompletes = false →
    s.completes op = Config.freeCompletes s.tick) ∧
  (∀ (s : State) (c : ReadCall), s.rdCall = some c → c.returns = false → s.env.driverCompletes = false →
    s.readReturns = Config.freeCompletes s.tick) ∧
  (∀ (s : State) op, s.driverCompletes → s.completes op = true ∧ s.readReturns = true) ∧
  (∀ s : State, s.driverCompletes → 1 ≤ s.params.R → s.engRun = true → s.queue = [] →
    (s.edgeGap = 0 → step s = exec .sampleEdge s.takeFetch) ∧
    (∀ n, s.edgeGap = n + 1 → s.takeFetch.edgeGap = n)) ∧
  (∀ i (s s' : State), exec i s = .next s' → s'.edgeGap = s.edgeGap)

/-- OPEN_LINE (R123): when the DRIVER completes it, status 0 writes a fresh handle of the line and any other
status leaves the handle and raises DriverError(OPEN_LINE); either way boot goes on (R152).  The model's own
choices here: log entries 6, 12, 15. -/
def Obligations.OpenLineResult : Prop :=
  ∀ l (s : State), s.begin.completes opOpenLine = true →
    exec (.openLine l) s =
      .next { s.begin.useScripted opOpenLine with
        hMarker := if s.begin.rawStatus opOpenLine = 0 ∧ l = .marker then
          some ⟨s.params.markerLine, s.tick + 1⟩ else s.hMarker
        hDout := if s.begin.rawStatus opOpenLine = 0 ∧ l = .dataOut then
          some ⟨s.params.dataOutLine, s.tick + 1⟩ else s.hDout
        hDin := if s.begin.rawStatus opOpenLine = 0 ∧ l = .dataIn then
          some ⟨s.params.dataInLine, s.tick + 1⟩ else s.hDin
        err := if s.begin.rawStatus opOpenLine = 0 then none
          else some (.driverCallFailed 0x6#4 (s.begin.rawStatus opOpenLine))
        boot := if s.boot = openPhase l then (openPhase l).next else s.boot
        ret := .opened (s.begin.rawStatus opOpenLine) (s.begin.rawStatus opOpenLine == 0) }

/-- CONFIGURE (R124, R34): with the block's own arguments, status 0 writes the fields of the channel and any
other leaves them and raises DriverError(CONFIGURE); any other argument, the marker line and R = 0 are
refused.  The model's own choices here: log entries 6, 13, 14, 15, 27 (that CONFIGURE refuses R = 0). -/
def Obligations.ConfigureResult : Prop :=
  (∀ h c (s : State), 1 ≤ s.params.R → s.params.legalCfg h = some c → s.begin.completes opConfigure = true →
    exec (.configure h c) s =
      .next { s.begin.useScripted opConfigure with
        wCfg := if s.begin.callStatus opConfigure (s.handle h).isSome = 0 ∧ h = .dataOut then some c
          else s.wCfg
        rCfg := if s.begin.callStatus opConfigure (s.handle h).isSome = 0 ∧ h = .dataIn then some c
          else s.rCfg
        err := if s.begin.callStatus opConfigure (s.handle h).isSome = 0 then none
          else some (.driverCallFailed 0x7#4 (s.begin.callStatus opConfigure (s.handle h).isSome))
        boot := if s.boot = configurePhase h then (configurePhase h).next else s.boot
        ret := .status (s.begin.callStatus opConfigure (s.handle h).isSome) }) ∧
  (∀ h c (s : State), 1 ≤ s.params.R → h ≠ .marker → s.params.legalCfg h ≠ some c →
    exec (.configure h c) s = .refused .badConfiguration) ∧
  (∀ c (s : State), exec (.configure .marker c) s = .refused .badHandle) ∧
  (∀ h c (s : State), h ≠ .marker → s.params.R = 0 → exec (.configure h c) s = .refused .badRepeatFactor)

/-- WRITE_IMM (R125): status 0 drives the level on the marker line; any other leaves the old level or the
new one; another handle is refused.  The model's own choices here: log entries 6, 13, 14. -/
def Obligations.WriteImmResult : Prop :=
  (∀ b (s : State), s.begin.completes opWriteImm = true →
    ∃ m, exec (.writeImm .marker b) s =
        .next { s.begin.useScripted opWriteImm with
          marker := m
          ret := .status (s.begin.callStatus opWriteImm (s.begin.usable .marker)) } ∧
      (s.begin.callStatus opWriteImm (s.begin.usable .marker) = 0 → m = b) ∧
      (m = b ∨ m = s.marker)) ∧
  (∀ h b (s : State), h ≠ .marker → exec (.writeImm h b) s = .refused .badHandle)

/-- WRITE_CLK (R126, R132): the digits are held in `tx`; status 0 on a clean channel arms the write;
otherwise `wr_armed` is free; nothing is driven; a write armed while a read runs has missed its start event
(R156).  Another handle or length is refused.  The model's own choices here: log entries 6, 14, 28, 30. -/
def Obligations.WriteClkResult : Prop :=
  (∀ bits (s : State), 1 ≤ s.params.R → bits.length = 68 * s.params.R → s.begin.completes opWriteClk = true →
    ∃ a, exec (.writeClk .dataOut bits) s =
        .next { s.begin.useScripted opWriteClk with
          tx := some bits
          wrArmed := a
          lateWrite := s.engRun
          ret := .status (s.begin.callStatus opWriteClk (s.begin.usable .dataOut)) } ∧
      (s.begin.callStatus opWriteClk (s.begin.usable .dataOut) = 0 → s.wrDirty = false → a = true)) ∧
  (∀ h bits (s : State), h ≠ .dataOut → exec (.writeClk h bits) s = .refused .badHandle) ∧
  (∀ bits (s : State), 1 ≤ s.params.R → bits.length ≠ 68 * s.params.R →
    exec (.writeClk .dataOut bits) s = .refused .badSequenceLength)

/-- READ_CLK (R127): with none outstanding it is issued: the index is 0, the engine runs, and the outstanding
call's status is that of a call on `h_din` (R120, R122, R79); once the engine has stopped and the DRIVER returns
it completes and returns the status and `rx`: as the edges wrote it after a good read on a clean channel, every
digit anew after a failed read or on a dirty channel; until then nothing happens. Another handle or count is
refused. The model's own choices here: log entries 6, 8 (the outcome is fixed at the issue), 10, 14, 16 (what
`PRE` and `FLIP` do there), 28 (it triggers an armed write), 29 (the one word stands for the issue, the wait and
the completion). -/
def Obligations.ReadClkResult : Prop :=
  (∀ s : State, 1 ≤ s.params.R → s.rdCall = none →
    exec (.readClk .dataIn (68 * s.params.R + 1)) s =
      .next { s.begin with
        k := 0
        engRun := true
        lateWrite := false
        rdCall := some
          { status := s.begin.callStatus opReadClk (s.begin.usable .dataIn)
            returns := s.env.driverCompletes || (s.scripted opReadClk).isSome }
        dout := s.env.pre.getD s.dout
        env := { s.env with
          fails := s.env.fails.eraseP fun f => f.1 == opReadClk
          pre := none
          preNow := s.env.pre
          flipNow := s.env.flipNext
          flipNext := [] } }) ∧
  (∀ (s : State) (c : ReadCall), 1 ≤ s.params.R → s.rdCall = some c → s.engRun = false →
    s.begin.readReturns = true →
    (∀ q : Digits, c.status = 0 → s.rdDirty = false → s.rx = q.map some →
      exec (.readClk .dataIn (68 * s.params.R + 1)) s =
        .next { s.begin with rdCall := none, ret := .readback 0 q }) ∧
    (c.status ≠ 0 ∨ s.rdDirty = true → ∃ q : Digits, q.length = 68 * s.params.R + 1 ∧
      exec (.readClk .dataIn (68 * s.params.R + 1)) s =
        .next { s.begin with rx := q.map some, rdCall := none, ret := .readback c.status q })) ∧
  (∀ (s : State) (c : ReadCall), 1 ≤ s.params.R → s.rdCall = some c →
    s.engRun = true ∨ s.begin.readReturns = false →
    exec (.readClk .dataIn (68 * s.params.R + 1)) s = .next s.begin) ∧
  (∀ h n (s : State), h ≠ .dataIn → exec (.readClk h n) s = .refused .badHandle) ∧
  (∀ n (s : State), 1 ≤ s.params.R → n ≠ 68 * s.params.R + 1 →
    exec (.readClk .dataIn n) s = .refused .badSampleCount)

/-- STOP_CLK (R128): on `h_dout` status 0 clears `wr_armed` and `wr_dirty`, any other sets `wr_dirty`; on
`h_din` status 0 clears `eng_run` and `rd_dirty`, any other sets `rd_dirty`; no line changes. The marker
line is refused.  The model's own choices here: log entries 6, 14. -/
def Obligations.StopClkResult : Prop :=
  (∀ s : State, s.begin.completes opStopClk = true →
    exec (.stopClk .dataOut) s =
      .next { s.begin.useScripted opStopClk with
        wrArmed := if s.begin.stopClkStatus .dataOut = 0 then false else s.wrArmed
        wrDirty := decide (s.begin.stopClkStatus .dataOut ≠ 0)
        ret := .status (s.begin.stopClkStatus .dataOut) }) ∧
  (∀ s : State, s.begin.completes opStopClk = true →
    exec (.stopClk .dataIn) s =
      .next { s.begin.useScripted opStopClk with
        engRun := if s.begin.stopClkStatus .dataIn = 0 then false else s.engRun
        rdDirty := decide (s.begin.stopClkStatus .dataIn ≠ 0)
        ret := .status (s.begin.stopClkStatus .dataIn) }) ∧
  (∀ s : State, exec (.stopClk .marker) s = .refused .badHandle)

/-- R94: whether made alone or inside a step of the FSM, a call has its effect only when the DRIVER
completes it; a call it does not complete leaves the block as it is.  The model's own choices here: log
entry 10. -/
def Obligations.HungCallWaits : Prop :=
  ∀ i (s s' : State) op, ownCall (s.actionRow i) = some op → exec i s = .next s' →
    s.begin.completes op = true ∨ s' = s.begin

/-- SAMPLE_EDGE (R129, R156): while the engine runs, in a legal state, digit k of `rx` takes the sample, then an
armed write drives digit k of `tx` for k < 68·R, unless it was armed after the start event; edge 68·R stops the
engine; while the engine does not run nothing happens. The read's samples must be known: of a failed read any
`dout` is admitted (R127). The model's own choices here: log entries 8, 10 (an edge while the engine does not
run), 19, 24, 28 (a write armed while the read already runs drives nothing). -/
def Obligations.SampleEdgeResult : Prop :=
  (∀ s : State, LegalState s → 1 ≤ s.params.R → s.engRun = true → s.readUnknown = false →
    ∃ d, exec .sampleEdge s =
        .next { s.begin with
          rx := s.rx.set s.k (some s.begin.sampleDin)
          dout := d
          engRun := decide (s.k ≠ 68 * s.params.R)
          k := s.k + 1 } ∧
      (∀ t, s.wrArmed = true → s.lateWrite = false → s.tx = some t → s.k < 68 * s.params.R →
        t[s.k]? = some d) ∧
      (s.wrArmed = false ∨ s.lateWrite = true ∨ s.k = 68 * s.params.R → d = s.dout)) ∧
  (∀ s : State, LegalState s → 1 ≤ s.params.R → s.engRun = true → s.readUnknown = true →
    ∃ d, exec .sampleEdge s =
      .next { s.begin with
        rx := s.rx.set s.k (some s.begin.sampleDin)
        dout := d
        engRun := decide (s.k ≠ 68 * s.params.R)
        k := s.k + 1 }) ∧
  (∀ s : State, s.engRun = false → exec .sampleEdge s = .next s.begin)

/-- R130, R79: under LOOPBACK_IDEAL the sample is the level of `dout` before the edge; without it, it is a
draw; with or without it, sample 0 of a transfer that a `PRE d` was given for is d; and at an index that a `FLIP`
names, and at no other, the sample is the inverse of that.  The model's own choices here: log entries 7 (the draw
`Config.freeDin`), 16 (`FLIP 0` inverts d). -/
def Obligations.LoopbackSample : Prop :=
  (∀ s : State, s.env.loopback = true → 1 ≤ s.k ∨ s.env.preNow = none →
    (s.k ∉ s.env.flipNow → s.sampleDin = s.dout) ∧ (s.k ∈ s.env.flipNow → s.sampleDin = !s.dout)) ∧
  (∀ s : State, s.env.loopback = false → 1 ≤ s.k ∨ s.env.preNow = none →
    (s.k ∉ s.env.flipNow → s.sampleDin = Config.freeDin s.tick) ∧
    (s.k ∈ s.env.flipNow → s.sampleDin = !Config.freeDin s.tick)) ∧
  (∀ (s : State) d, s.k = 0 → s.env.preNow = some d →
    (0 ∉ s.env.flipNow → s.sampleDin = d) ∧ (0 ∈ s.env.flipNow → s.sampleDin = !d))

/-! The FSM. -/

/-- IDLE (R96): a set stop flag exits; otherwise a cell that differs from the last observed value is
captured; otherwise the FSM stays. -/
def Obligations.IdleResult : Prop :=
  ∀ s : State, s.codesLegal = true →
    (s.stop = true → exec .stIdle s = .next { s.begin with st := 0b101#3 }) ∧
    (s.stop = false → s.cell ≠ s.lastObs →
      exec .stIdle s =
        .next { s.begin with cap := some s.cell, lastObs := s.cell, cycErr := false, st := 0b001#3 }) ∧
    (s.stop = false → s.cell = s.lastObs → exec .stIdle s = .next { s.begin with st := 0b000#3 })

/-- MARKER_ASSERTED (R97): the start time is drawn and the marker driven high; a failing WRITE_IMM raises
DriverError, sets `cyc_err` and leaves the marker at its old level or high; the FSM goes to XFER ARM.  The
model's own choices here: log entries 6, 10. -/
def Obligations.MarkerAssertedResult : Prop :=
  ∀ (s : State) st, s.codesLegal = true → s.begin.completes opWriteImm = true →
    st = s.begin.callStatus opWriteImm (s.begin.usable .marker) →
    ∃ m t0, exec .stMarkerAsserted s =
        .next { s.begin.useScripted opWriteImm with
          marker := m
          tStart := some t0
          err := if st = 0 then none else some (.driverCallFailed 0x8#4 st)
          cycErr := if st = 0 then s.cycErr else true
          ret := .status st
          xs := 0b000#3
          st := 0b010#3 } ∧
      (st = 0 → m = true) ∧ (m = true ∨ m = s.marker)

/-- MARKER_DEASSERTED (R103): the marker is driven low; a failing WRITE_IMM raises DriverError, sets
`cyc_err` and leaves the marker at its old level or low; the FSM goes to VERIFIED.  The model's own choices
here: log entries 6, 10. -/
def Obligations.MarkerDeassertedResult : Prop :=
  ∀ (s : State) st, s.codesLegal = true → s.begin.completes opWriteImm = true →
    st = s.begin.callStatus opWriteImm (s.begin.usable .marker) →
    ∃ m, exec .stMarkerDeasserted s =
        .next { s.begin.useScripted opWriteImm with
          marker := m
          err := if st = 0 then none else some (.driverCallFailed 0x8#4 st)
          cycErr := if st = 0 then s.cycErr else true
          ret := .status st
          st := 0b100#3 } ∧
      (st = 0 → m = false) ∧ (m = false ∨ m = s.marker)

/-- XFER ARM (R98): the captured value is encoded into `tx` and the write armed; a failing WRITE_CLK raises
DriverError and sets `cyc_err`; `dout` does not change; the FSM goes to START.  The model's own choices
here: log entries 6, 11, 28, 30. -/
def Obligations.XferArmResult : Prop :=
  ∀ (s : State) v st, s.codesLegal = true → s.cap = some v → 1 ≤ s.params.R →
    s.begin.completes opWriteClk = true →
    st = s.begin.callStatus opWriteClk (s.begin.usable .dataOut) →
    ∃ a t, exec .xsArm s = .next t ∧ (s.xs = 0b000#3 → exec .stXfer s = .next t) ∧
      t = { s.begin.useScripted opWriteClk with
        tx := some (encoderSeq v s.params.R)
        wrArmed := a
        lateWrite := s.engRun
        encValue := v
        err := if st = 0 then none else some (.driverCallFailed 0x9#4 st)
        cycErr := if st = 0 then s.cycErr else true
        ret := .status st
        xs := 0b001#3 } ∧
      (st = 0 → s.wrDirty = false → a = true)

/-- XFER START (R99): READ_CLK is issued: the index is 0, the engine runs, and the call is outstanding with the
status of a call on `h_din` (R120, R122, R79); the FSM goes to WAIT.  The model's own choices here: log entries
8, 16, 28, 29 (it replaces the call of a READ_CLK word). -/
def Obligations.XferStartResult : Prop :=
  ∀ s : State, s.codesLegal = true → 1 ≤ s.params.R →
    ∃ t, exec .xsStart s = .next t ∧ (s.xs = 0b001#3 → exec .stXfer s = .next t) ∧
      t = { s.begin with
        k := 0
        engRun := true
        lateWrite := false
        busy := true
        rdCall := some
          { status := s.begin.callStatus opReadClk (s.begin.usable .dataIn)
            returns := s.env.driverCompletes || (s.scripted opReadClk).isSome }
        dout := s.env.pre.getD s.dout
        env := { s.env with
          fails := s.env.fails.eraseP fun f => f.1 == opReadClk
          pre := none
          preNow := s.env.pre
          flipNow := s.env.flipNext
          flipNext := [] }
        xs := 0b010#3 }

/-- XFER WAIT (R100, R95): once the engine has stopped and the DRIVER returns, the outstanding READ_CLK
completes: a good read on a clean channel leaves `rx` as the edges wrote it, a failed read or a dirty channel
leaves every digit drawn anew; a non-zero status raises DriverError and sets `cyc_err`; the FSM goes to STOP_W.
Until then it stays.  The model's own choices here: log entries 6, 8, 10 (the step that only waits). -/
def Obligations.XferWaitResult : Prop :=
  (∀ (s : State) (c : ReadCall), s.codesLegal = true → 1 ≤ s.params.R → s.rdCall = some c →
    s.engRun = false → s.begin.readReturns = true →
    (∀ q : Digits, c.status = 0 → s.rdDirty = false → s.rx = q.map some →
      ∃ t, exec .xsWait s = .next t ∧ (s.xs = 0b010#3 → exec .stXfer s = .next t) ∧
        t = { s.begin with
          rdCall := none
          busy := false
          ret := .readback 0 q
          xs := 0b011#3 }) ∧
    (c.status ≠ 0 ∨ s.rdDirty = true → ∃ (q : Digits) (t : State), q.length = 68 * s.params.R + 1 ∧
      exec .xsWait s = .next t ∧ (s.xs = 0b010#3 → exec .stXfer s = .next t) ∧
        t = { s.begin with
          rx := q.map some
          rdCall := none
          busy := false
          err := if c.status = 0 then none else some (.driverCallFailed 0xA#4 c.status)
          cycErr := if c.status = 0 then s.cycErr else true
          ret := .readback c.status q
          xs := 0b011#3 })) ∧
  (∀ s : State, s.codesLegal = true → s.engRun = true ∨ s.begin.readReturns = false →
    exec .xsWait s = .next s.begin)

/-- XFER STOP_W (R101): the clocked write is stopped; a failing STOP_CLK raises DriverError, sets `cyc_err`
and leaves the channel dirty; the FSM goes to STOP_R.  The model's own choices here: log entry 6. -/
def Obligations.XferStopWResult : Prop :=
  ∀ (s : State) st, s.codesLegal = true → s.begin.completes opStopClk = true →
    st = s.begin.stopClkStatus .dataOut →
    ∃ t, exec .xsStopW s = .next t ∧ (s.xs = 0b011#3 → exec .stXfer s = .next t) ∧
      t = { s.begin.useScripted opStopClk with
        wrArmed := if st = 0 then false else s.wrArmed
        wrDirty := decide (st ≠ 0)
        err := if st = 0 then none else some (.driverCallFailed 0xB#4 st)
        cycErr := if st = 0 then s.cycErr else true
        ret := .status st
        xs := 0b100#3 }

/-- XFER STOP_R (R102): the clocked read is stopped; a failing STOP_CLK raises DriverError, sets `cyc_err`
and leaves the channel dirty; the FSM goes to MARKER_DEASSERTED and `xs` stays.  The model's own choices
here: log entry 6. -/
def Obligations.XferStopRResult : Prop :=
  ∀ (s : State) st, s.codesLegal = true → s.begin.completes opStopClk = true →
    st = s.begin.stopClkStatus .dataIn →
    ∃ t, exec .xsStopR s = .next t ∧ (s.xs = 0b100#3 → exec .stXfer s = .next t) ∧
      t = { s.begin.useScripted opStopClk with
        engRun := if st = 0 then false else s.engRun
        rdDirty := decide (st ≠ 0)
        err := if st = 0 then none else some (.driverCallFailed 0xB#4 st)
        cycErr := if st = 0 then s.cycErr else true
        ret := .status st
        st := 0b011#3 }

/-- R93: in XFER the FSM's step is the action of the sub-state in `xs`. -/
def Obligations.XferRunsSubState : Prop := ∀ s : State, exec .stXfer s = exec (decodeSub s.xs) s

/-- VERIFIED (R104, R138): the read-back is decoded and compared with the captured value; one record is
emitted, and a mismatch is raised exactly when they differ; the FSM goes to IDLE.  The model's own choices
here: log entry 11. -/
def Obligations.VerifiedResult : Prop :=
  ∀ (s : State) v (q : Digits) t0, s.codesLegal = true → s.cap = some v → s.rx = q.map some →
    s.tStart = some t0 → 1 ≤ s.params.R → q.length = 68 * s.params.R + 1 →
    ∃ l, exec .stVerified s =
      .next { s.begin with
        rcv := some (decoderValue q s.params.R)
        matched := decide (decoderValue q s.params.R = v)
        frameOk := decoderFrameOk q s.params.R
        decRb := q
        record := some
          { sent := v
            received := decoderValue q s.params.R
            matched := decide (decoderValue q s.params.R = v)
            frameOk := decoderFrameOk q s.params.R
            driverErr := s.cycErr
            latency := l }
        err := if decoderValue q s.params.R = v then none
          else some (.roundtripMismatch v (decoderValue q s.params.R))
        st := 0b000#3 }

/-- EXITED (R105): it has no step, so the FSM's turn there changes nothing; and only a reset leaves it
(R150).  The model's own choices here: log entry 10. -/
def Obligations.OnlyResetLeavesExited : Prop :=
  (∀ s : State, s.codesLegal = true → exec .stExited s = .next s.begin) ∧
  (∀ s s' : State, s.st = 0b101#3 → s.noReset → step s = .next s' → s'.st = 0b101#3)

/-- R106: EXITED is entered only from IDLE with the stop flag set, so a transfer in flight runs to
completion first. -/
def Obligations.ExitOnlyFromIdleWithStop : Prop :=
  ∀ s s' : State, step s = .next s' → s'.st = 0b101#3 → s.st = 0b101#3 ∨ (s.st = 0b000#3 ∧ s.stop = true)

/-- R75: no instruction writes a reserved code to `st` or `xs`; in a state that holds one, in either register,
the FSM faults, it has no enabled step, and the state is not final. -/
def Obligations.ReservedCodesNeverWritten : Prop :=
  (∀ i (s s' : State), s.st.toNat ≤ 5 → s.xs.toNat ≤ 4 → exec i s = .next s' →
    s'.st.toNat ≤ 5 ∧ s'.xs.toNat ≤ 4) ∧
  (∀ s : State, 6 ≤ s.st.toNat ∨ 5 ≤ s.xs.toNat →
    exec (decodeState s.st) s = .fault .reservedState ∧ exec (decodeSub s.xs) s = .fault .reservedState ∧
    s.fsmEnabled = false ∧ s.final = false) ∧
  (∀ s : State, exec .stReserved6 s = .fault .reservedState ∧ exec .stReserved7 s = .fault .reservedState ∧
    exec .xsReserved5 s = .fault .reservedState ∧ exec .xsReserved6 s = .fault .reservedState ∧
    exec .xsReserved7 s = .fault .reservedState)

/-- R95, R107: outside IDLE the FSM's turn goes to the one successor of its state exactly when its step is
enabled, whatever statuses the calls return; otherwise it leaves the state.  The model's own choices here:
log entry 10. -/
def Obligations.FsmOrder : Prop :=
  ∀ s s' : State, s.st ≠ 0b000#3 → exec (decodeState s.st) s = .next s' →
    (s.fsmEnabled = true → (s'.st, s'.xs) = fsmSuccessor s.st s.xs) ∧
    (s.fsmEnabled = false → s' = s.begin)

/-- R139: what each step can raise, and nothing else. -/
def Obligations.ErrorTable : Prop :=
  ∀ i (s s' : State) e, exec i s = .next s' → s'.err = some e → mayRaise (s.actionRow i) e

/-- R136, R137, R138, R143: the error output carries class 1 with a non-zero status, or class 2 with the
call id of DECODE, no status, and the record of the mismatch before it; no other class. -/
def Obligations.ErrorOutputs : Prop :=
  ∀ i (s s' : State) e, exec i s = .next s' → s'.err = some e →
    (e.code = 1#2 ∧ s'.record = none ∧ s'.outputs = [.error e] ∧ ∃ st, e.status = some st ∧ st ≠ 0) ∨
    (e.code = 2#2 ∧ e.call = 0x1#4 ∧ e.status = none ∧
      ∃ r, s'.record = some r ∧ r.matched = false ∧ e = .roundtripMismatch r.sent r.received ∧
        s'.outputs = [.record r, .error e])

/-- R110: each visit to VERIFIED emits exactly one record, and nothing else emits one. -/
def Obligations.RecordExactlyInVerified : Prop :=
  ∀ i (s s' : State), exec i s = .next s' → (s'.record ≠ none ↔ i = .stVerified)

/-- R21, R12: a rule that reads a register nothing has written faults: ARM and VERIFIED without a captured
value, VERIFIED and a completing READ_CLK with an unwritten digit of `rx`, VERIFIED without a start time, an armed
edge without `tx`; and so does an edge outside `rx` or after the last.  The model's own choices here: log entries
3, 19. -/
def Obligations.UnwrittenReadsFault : Prop :=
  (∀ s : State, s.codesLegal = true → s.cap = none → exec .xsArm s = .fault (.unwritten .cap) ∧
    exec .stVerified s = .fault (.unwritten .cap)) ∧
  (∀ (s : State) v (j : Nat), s.codesLegal = true → s.cap = some v → s.rx[j]? = some none →
    exec .stVerified s = .fault (.unwritten .rx)) ∧
  (∀ (s : State) v q, s.codesLegal = true → s.cap = some v → s.rx = List.map some q → s.tStart = none →
    exec .stVerified s = .fault (.unwritten .tStart)) ∧
  (∀ (s : State) (c : ReadCall) (j : Nat), 1 ≤ s.params.R → s.rdCall = some c → c.status = 0 →
    s.rdDirty = false → s.engRun = false → s.begin.readReturns = true → s.rx[j]? = some none →
    exec (.readClk .dataIn (68 * s.params.R + 1)) s = .fault (.unwritten .rx) ∧
    (s.codesLegal = true → exec .xsWait s = .fault (.unwritten .rx))) ∧
  (∀ s : State, s.engRun = true → s.wrArmed = true → s.lateWrite = false → s.tx = none →
    s.k < 68 * s.params.R → s.k < s.rx.length →
    exec .sampleEdge s = .fault (.unwritten .tx)) ∧
  (∀ s : State, 1 ≤ s.params.R → s.engRun = true → 68 * s.params.R < s.k ∨ s.rx.length ≤ s.k →
    exec .sampleEdge s = .fault .indexOutOfRange)

/-! The machine. -/

/-- R55, R93: a step runs the instruction its turn fetches, on the state with the turn taken (the queue's head,
or the count of the sample clock's gap); a turn with nothing to do only ends the pulses; what is refused at the
fetch is refused.  Each agent's turn fetches its own step: the PRODUCER's a cell write or a stop (R114, R116,
R118), the reset input's RESET (R151), the SAMPLER's SAMPLE_EDGE (R129), boot's the next call of R152 and nothing
after the fifth, the FSM's the code in `st`.  With an empty queue, and no edge owed, any turn may come.  A stimulus
word and a bare operation word are decoded, and refused where the decoder refuses them; and a bare table word
placed at the head of the queue is the next instruction to run.  The model's own choices here: log entries 5, 7, 9,
10 (a turn with nothing to do), 26. -/
def Obligations.StepRunsFetched : Prop :=
  (∀ (s : State) i, s.fetched = .instr i → step s = exec i s.takeFetch) ∧
  (∀ s : State, s.fetched = .idle → step s = .next s.takeFetch.begin) ∧
  (∀ (s : State) r, s.fetched = .refused r → step s = .refused r) ∧
  (∀ (s : State) f q, s.queue = f :: q → s.takeFetch = { s with queue := q }) ∧
  (∀ (s : State) q v, 1 ≤ s.params.R → s.queue = .turn (.producerSet v) :: q →
    step s = exec (.cellSet v) s.takeFetch) ∧
  (∀ (s : State) q, 1 ≤ s.params.R →
    (s.queue = .turn .producerStop :: q → step s = exec .stopReq s.takeFetch) ∧
    (s.queue = .turn .reset :: q → step s = exec .reset s.takeFetch) ∧
    (s.queue = .turn .sampler :: q → step s = exec .sampleEdge s.takeFetch)) ∧
  (∀ (s : State) q, 1 ≤ s.params.R → s.queue = .turn .boot :: q →
    (s.boot = .openMarker → step s = exec (.openLine .marker) s.takeFetch) ∧
    (s.boot = .openDataOut → step s = exec (.openLine .dataOut) s.takeFetch) ∧
    (s.boot = .openDataIn → step s = exec (.openLine .dataIn) s.takeFetch) ∧
    (s.boot = .configureDataOut → step s = exec (.configure .dataOut
      ⟨s.params.sampleRate, s.params.clockEdge, 68 * s.params.R, .startOf .dataIn⟩) s.takeFetch) ∧
    (s.boot = .configureDataIn → step s = exec (.configure .dataIn
      ⟨s.params.sampleRate, s.params.clockEdge, 68 * s.params.R + 1, .none⟩) s.takeFetch) ∧
    (s.boot = .released → step s = .next s.takeFetch.begin)) ∧
  (∀ (s : State) q, 1 ≤ s.params.R → s.queue = .turn .fsm :: q → s.boot = .released →
    step s = exec (decodeState s.st) s.takeFetch) ∧
  (∀ s : State, s.queue = [] → s.clockDue = false → s.nextFetch = .turn (Config.freeTurn s.tick)) ∧
  (∀ (s : State) q w i, 1 ≤ s.params.R → s.queue = .stimulus w :: q → decodeStimulus w = .ok i →
    step s = exec i s.takeFetch) ∧
  (∀ (s : State) q w e, 1 ≤ s.params.R → s.queue = .stimulus w :: q → decodeStimulus w = .error e →
    step s = .refused (.undecodable e)) ∧
  (∀ (s : State) q (w : OpWord), 1 ≤ s.params.R → s.queue = .word w :: q →
    (∀ i, decodeOp w = .ok i → step s = exec i s.takeFetch) ∧
    (∀ e, decodeOp w = .error e → step s = .refused (.undecodable e))) ∧
  (∀ (s : State) nbits w i, 1 ≤ s.params.R → decodeOp (tableWord s.params (w % 2 ^ nbits)) = .ok i →
    step (s.withFetchWord nbits w) = exec i s)

/-- R152, R153: the FSM takes no step before boot has released it, and under DRIVER_OK and DRIVER_COMPLETES the
five calls of the boot sequence release it with every channel usable and no error.  In any run of the block's own
agents from a state with nothing booted, once boot has released the FSM five calls have returned, and BOOT_DONE
(each returned 0) holds exactly when every channel has its handle and its configuration.  In any run, bare
operation words included, that then stays so until a reset.  The model's own choices here: log entries 9, 10, 12 (a
bare OPEN_LINE word that fails on an opened line keeps the old handle), 15. -/
def Obligations.BootReleasesFsm : Prop :=
  (∀ (s : State) q, 1 ≤ s.params.R → s.queue = .turn .fsm :: q → s.boot ≠ .released →
    step s = .next s.takeFetch.begin) ∧
  (∀ p d, 1 ≤ p.R → ∃ s, (State.idealReset p d).turns .boot 5 = .next s ∧ s.boot = .released ∧
    s.usable .marker = true ∧ s.usable .dataOut = true ∧ s.usable .dataIn = true ∧ s.err = none ∧
    s.st = 0b000#3) ∧
  (∀ (s t : State) statuses, s.blockRun → s.boot = .openMarker →
    (∀ l, s.handle l = none ∧ s.clockCfg l = none) → BootRun s statuses t → t.boot = .released →
    statuses.length = 5 ∧ (bootDone statuses ↔ t.bootGood)) ∧
  (∀ s s' : State, s.bootGood → s.noReset → step s = .next s' → s'.bootGood)

/-- R35, R10: no step changes R; that none changes another parameter either is the model's own choice: log
entry 1. -/
def Obligations.ParametersStatic : Prop :=
  (∀ i (s s' : State), exec i s = .next s' → s'.params = s.params) ∧
  (∀ s s' : State, step s = .next s' → s'.params = s.params)

/-- R22, R23, R25, R26, R27, R75: every step keeps legal codes, the buffers' lengths, the index in its range
and the digits of an armed write. -/
def Obligations.LegalStateKept : Prop := ∀ s s' : State, LegalState s → step s = .next s' → LegalState s'

/-- R21: every step of the block's own agents keeps every register that a rule will read written.  The
model's own choices here: log entry 9. -/
def Obligations.WrittenBeforeReadKept : Prop :=
  ∀ s s' : State, WrittenBeforeRead s → step s = .next s' → WrittenBeforeRead s'

/-- R21: no path from such a state reads an unwritten register: a step never faults, and is refused only for
a stimulus word the decoder refuses.  The model's own choices here: log entries 9, 23. -/
def Obligations.NoFaultOnAnyPath : Prop :=
  ∀ s : State, WrittenBeforeRead s → (∃ t, step s = .next t) ∨ ∃ e, step s = .refused (.undecodable e)

/-- R42: the invariants hold after reset at any parameters with R ≥ 1; the last two under their premises. -/
def Obligations.InvariantsAtReset : Prop :=
  LegalState State.reset ∧ WrittenBeforeRead State.reset ∧
  ∀ p d, LegalState (State.atReset p d) ∧
    (1 ≤ p.R → WrittenBeforeRead (State.atReset p d) ∧ MarkerBracket (State.idealReset p d) ∧
      RoundTrip (State.idealReset p d) ∧ (p.lastInit.toNat ≤ p.cellInit.toNat →
        (State.atReset p d).observedBelow))

/-- R108: when every call succeeds, every step keeps the marker line high exactly in XFER and
MARKER_DEASSERTED.  The model's own choices here: log entry 16. -/
def Obligations.MarkerBracketKept : Prop :=
  ∀ s s' : State, MarkerBracket s → step s = .next s' → MarkerBracket s'

/-- R108: so every change of `dout` but a reset's happens while the marker is high. -/
def Obligations.DoutChangesInsideBracket : Prop :=
  ∀ s s' : State, MarkerBracket s → s.noReset → step s = .next s' → s'.dout ≠ s.dout →
    s.marker = true ∧ s'.marker = true

/-- R113, R133: under DRIVER_OK, DRIVER_COMPLETES and LOOPBACK_IDEAL, every step but a reset keeps the
read-back equal to what is sent.  The model's own choices here: log entry 16. -/
def Obligations.RoundTripKept : Prop :=
  ∀ s s' : State, RoundTrip s → s.noReset → step s = .next s' → RoundTrip s'

/-- R113: so every transfer's record has received = sent, matched = 1 and frame_ok = 1, and no error is
raised with it. -/
def Obligations.RoundTripRecord : Prop :=
  ∀ s : State, RoundTrip s → s.st = 0b100#3 →
    ∃ v l t, s.cap = some v ∧ exec .stVerified s = .next t ∧ t.record = some ⟨v, v, true, true, false, l⟩ ∧
      t.err = none ∧ t.st = 0b000#3

/-- R112, R117: in any run whose published values each exceed every earlier one, the values captured for a
transfer, which are the values sent, rise strictly, so none is sent twice, resets included; the run begins with
nothing uncaptured in the cell, and LAST_INIT = CELL_INIT, the spec's default (R10, D8). A run whose parameters
LAST_INIT and CELL_INIT differ is left out: there a reset leaves CELL_INIT in the cell to be sent, each time.
The step form: with a value that exceeds the cell's content, the last observed value never exceeds the cell's,
and a captured value exceeds the one before it. The model's own choices here: log entry 25 (the premise
`publishesHigher` of the step form). -/
def Obligations.MonotonicNeverResends : Prop :=
  (∀ (s t : State) published sent, Run s published sent t → s.cell = s.lastObs →
    s.params.lastInit = s.params.cellInit → producerMonotonic published →
    sent.Pairwise fun v w => v.toNat < w.toNat) ∧
  (∀ s s' : State, s.observedBelow → s.noReset → s.publishesHigher → step s = .next s' →
    s'.observedBelow ∧ s.lastObs.toNat ≤ s'.lastObs.toNat ∧
    (s'.st = 0b001#3 → s.st ≠ 0b001#3 → s'.cap = some s'.lastObs ∧ s.lastObs.toNat < s'.lastObs.toNat))
end

