-- ==== Sys2Proof/Laws/State.lean ====
section
/-!
SUPPORT. The state's updates, field by field: what each named update leaves in every field of the state.
-/

namespace Sys2Proof.Machine

/-! The start of a step. -/

@[simp] theorem State.begin_params (s : State) : (s.begin).params = s.params := rfl
@[simp] theorem State.begin_env (s : State) : (s.begin).env = s.env := rfl
@[simp] theorem State.begin_queue (s : State) : (s.begin).queue = s.queue := rfl
@[simp] theorem State.begin_tick (s : State) : (s.begin).tick = s.tick + 1 := rfl
@[simp] theorem State.begin_edgeGap (s : State) : (s.begin).edgeGap = s.edgeGap := rfl
@[simp] theorem State.begin_boot (s : State) : (s.begin).boot = s.boot := rfl
@[simp] theorem State.begin_st (s : State) : (s.begin).st = s.st := rfl
@[simp] theorem State.begin_xs (s : State) : (s.begin).xs = s.xs := rfl
@[simp] theorem State.begin_lastObs (s : State) : (s.begin).lastObs = s.lastObs := rfl
@[simp] theorem State.begin_cap (s : State) : (s.begin).cap = s.cap := rfl
@[simp] theorem State.begin_rcv (s : State) : (s.begin).rcv = s.rcv := rfl
@[simp] theorem State.begin_matched (s : State) : (s.begin).matched = s.matched := rfl
@[simp] theorem State.begin_frameOk (s : State) : (s.begin).frameOk = s.frameOk := rfl
@[simp] theorem State.begin_cycErr (s : State) : (s.begin).cycErr = s.cycErr := rfl
@[simp] theorem State.begin_tStart (s : State) : (s.begin).tStart = s.tStart := rfl
@[simp] theorem State.begin_tx (s : State) : (s.begin).tx = s.tx := rfl
@[simp] theorem State.begin_rx (s : State) : (s.begin).rx = s.rx := rfl
@[simp] theorem State.begin_k (s : State) : (s.begin).k = s.k := rfl
@[simp] theorem State.begin_wrArmed (s : State) : (s.begin).wrArmed = s.wrArmed := rfl
@[simp] theorem State.begin_lateWrite (s : State) : (s.begin).lateWrite = s.lateWrite := rfl
@[simp] theorem State.begin_engRun (s : State) : (s.begin).engRun = s.engRun := rfl
@[simp] theorem State.begin_wrDirty (s : State) : (s.begin).wrDirty = s.wrDirty := rfl
@[simp] theorem State.begin_rdDirty (s : State) : (s.begin).rdDirty = s.rdDirty := rfl
@[simp] theorem State.begin_busy (s : State) : (s.begin).busy = s.busy := rfl
@[simp] theorem State.begin_rdCall (s : State) : (s.begin).rdCall = s.rdCall := rfl
@[simp] theorem State.begin_hMarker (s : State) : (s.begin).hMarker = s.hMarker := rfl
@[simp] theorem State.begin_hDout (s : State) : (s.begin).hDout = s.hDout := rfl
@[simp] theorem State.begin_hDin (s : State) : (s.begin).hDin = s.hDin := rfl
@[simp] theorem State.begin_wCfg (s : State) : (s.begin).wCfg = s.wCfg := rfl
@[simp] theorem State.begin_rCfg (s : State) : (s.begin).rCfg = s.rCfg := rfl
@[simp] theorem State.begin_marker (s : State) : (s.begin).marker = s.marker := rfl
@[simp] theorem State.begin_dout (s : State) : (s.begin).dout = s.dout := rfl
@[simp] theorem State.begin_cell (s : State) : (s.begin).cell = s.cell := rfl
@[simp] theorem State.begin_stop (s : State) : (s.begin).stop = s.stop := rfl
@[simp] theorem State.begin_record (s : State) : (s.begin).record = none := rfl
@[simp] theorem State.begin_err (s : State) : (s.begin).err = none := rfl
@[simp] theorem State.begin_encValue (s : State) : (s.begin).encValue = s.encValue := rfl
@[simp] theorem State.begin_decRb (s : State) : (s.begin).decRb = s.decRb := rfl
@[simp] theorem State.begin_ret (s : State) : (s.begin).ret = .nothing := rfl

/-! Taking the head of the queue. -/

@[simp] theorem State.takeFetch_params (s : State) : (s.takeFetch).params = s.params := rfl
@[simp] theorem State.takeFetch_env (s : State) : (s.takeFetch).env = s.env := rfl
@[simp] theorem State.takeFetch_queue (s : State) : (s.takeFetch).queue = s.queue.tail := rfl
@[simp] theorem State.takeFetch_tick (s : State) : (s.takeFetch).tick = s.tick := rfl
@[simp] theorem State.takeFetch_edgeGap (s : State) : (s.takeFetch).edgeGap = if s.queue.isEmpty then s.nextGap else s.edgeGap := rfl
@[simp] theorem State.takeFetch_boot (s : State) : (s.takeFetch).boot = s.boot := rfl
@[simp] theorem State.takeFetch_st (s : State) : (s.takeFetch).st = s.st := rfl
@[simp] theorem State.takeFetch_xs (s : State) : (s.takeFetch).xs = s.xs := rfl
@[simp] theorem State.takeFetch_lastObs (s : State) : (s.takeFetch).lastObs = s.lastObs := rfl
@[simp] theorem State.takeFetch_cap (s : State) : (s.takeFetch).cap = s.cap := rfl
@[simp] theorem State.takeFetch_rcv (s : State) : (s.takeFetch).rcv = s.rcv := rfl
@[simp] theorem State.takeFetch_matched (s : State) : (s.takeFetch).matched = s.matched := rfl
@[simp] theorem State.takeFetch_frameOk (s : State) : (s.takeFetch).frameOk = s.frameOk := rfl
@[simp] theorem State.takeFetch_cycErr (s : State) : (s.takeFetch).cycErr = s.cycErr := rfl
@[simp] theorem State.takeFetch_tStart (s : State) : (s.takeFetch).tStart = s.tStart := rfl
@[simp] theorem State.takeFetch_tx (s : State) : (s.takeFetch).tx = s.tx := rfl
@[simp] theorem State.takeFetch_rx (s : State) : (s.takeFetch).rx = s.rx := rfl
@[simp] theorem State.takeFetch_k (s : State) : (s.takeFetch).k = s.k := rfl
@[simp] theorem State.takeFetch_wrArmed (s : State) : (s.takeFetch).wrArmed = s.wrArmed := rfl
@[simp] theorem State.takeFetch_lateWrite (s : State) : (s.takeFetch).lateWrite = s.lateWrite := rfl
@[simp] theorem State.takeFetch_engRun (s : State) : (s.takeFetch).engRun = s.engRun := rfl
@[simp] theorem State.takeFetch_wrDirty (s : State) : (s.takeFetch).wrDirty = s.wrDirty := rfl
@[simp] theorem State.takeFetch_rdDirty (s : State) : (s.takeFetch).rdDirty = s.rdDirty := rfl
@[simp] theorem State.takeFetch_busy (s : State) : (s.takeFetch).busy = s.busy := rfl
@[simp] theorem State.takeFetch_rdCall (s : State) : (s.takeFetch).rdCall = s.rdCall := rfl
@[simp] theorem State.takeFetch_hMarker (s : State) : (s.takeFetch).hMarker = s.hMarker := rfl
@[simp] theorem State.takeFetch_hDout (s : State) : (s.takeFetch).hDout = s.hDout := rfl
@[simp] theorem State.takeFetch_hDin (s : State) : (s.takeFetch).hDin = s.hDin := rfl
@[simp] theorem State.takeFetch_wCfg (s : State) : (s.takeFetch).wCfg = s.wCfg := rfl
@[simp] theorem State.takeFetch_rCfg (s : State) : (s.takeFetch).rCfg = s.rCfg := rfl
@[simp] theorem State.takeFetch_marker (s : State) : (s.takeFetch).marker = s.marker := rfl
@[simp] theorem State.takeFetch_dout (s : State) : (s.takeFetch).dout = s.dout := rfl
@[simp] theorem State.takeFetch_cell (s : State) : (s.takeFetch).cell = s.cell := rfl
@[simp] theorem State.takeFetch_stop (s : State) : (s.takeFetch).stop = s.stop := rfl
@[simp] theorem State.takeFetch_record (s : State) : (s.takeFetch).record = s.record := rfl
@[simp] theorem State.takeFetch_err (s : State) : (s.takeFetch).err = s.err := rfl
@[simp] theorem State.takeFetch_encValue (s : State) : (s.takeFetch).encValue = s.encValue := rfl
@[simp] theorem State.takeFetch_decRb (s : State) : (s.takeFetch).decRb = s.decRb := rfl
@[simp] theorem State.takeFetch_ret (s : State) : (s.takeFetch).ret = s.ret := rfl

/-! Putting a word at the head of the queue; a queue that held something gives back the rest. -/

@[simp] theorem State.pushWord_params (s : State) (w : OpWord) : (s.pushWord w).params = s.params := rfl
@[simp] theorem State.pushWord_env (s : State) (w : OpWord) : (s.pushWord w).env = s.env := rfl
@[simp] theorem State.pushWord_queue (s : State) (w : OpWord) : (s.pushWord w).queue = .word w :: s.queue := rfl
@[simp] theorem State.pushWord_tick (s : State) (w : OpWord) : (s.pushWord w).tick = s.tick := rfl
@[simp] theorem State.pushWord_edgeGap (s : State) (w : OpWord) : (s.pushWord w).edgeGap = s.edgeGap := rfl
@[simp] theorem State.pushWord_boot (s : State) (w : OpWord) : (s.pushWord w).boot = s.boot := rfl
@[simp] theorem State.pushWord_st (s : State) (w : OpWord) : (s.pushWord w).st = s.st := rfl
@[simp] theorem State.pushWord_xs (s : State) (w : OpWord) : (s.pushWord w).xs = s.xs := rfl
@[simp] theorem State.pushWord_lastObs (s : State) (w : OpWord) : (s.pushWord w).lastObs = s.lastObs := rfl
@[simp] theorem State.pushWord_cap (s : State) (w : OpWord) : (s.pushWord w).cap = s.cap := rfl
@[simp] theorem State.pushWord_rcv (s : State) (w : OpWord) : (s.pushWord w).rcv = s.rcv := rfl
@[simp] theorem State.pushWord_matched (s : State) (w : OpWord) : (s.pushWord w).matched = s.matched := rfl
@[simp] theorem State.pushWord_frameOk (s : State) (w : OpWord) : (s.pushWord w).frameOk = s.frameOk := rfl
@[simp] theorem State.pushWord_cycErr (s : State) (w : OpWord) : (s.pushWord w).cycErr = s.cycErr := rfl
@[simp] theorem State.pushWord_tStart (s : State) (w : OpWord) : (s.pushWord w).tStart = s.tStart := rfl
@[simp] theorem State.pushWord_tx (s : State) (w : OpWord) : (s.pushWord w).tx = s.tx := rfl
@[simp] theorem State.pushWord_rx (s : State) (w : OpWord) : (s.pushWord w).rx = s.rx := rfl
@[simp] theorem State.pushWord_k (s : State) (w : OpWord) : (s.pushWord w).k = s.k := rfl
@[simp] theorem State.pushWord_wrArmed (s : State) (w : OpWord) : (s.pushWord w).wrArmed = s.wrArmed := rfl
@[simp] theorem State.pushWord_lateWrite (s : State) (w : OpWord) : (s.pushWord w).lateWrite = s.lateWrite := rfl
@[simp] theorem State.pushWord_engRun (s : State) (w : OpWord) : (s.pushWord w).engRun = s.engRun := rfl
@[simp] theorem State.pushWord_wrDirty (s : State) (w : OpWord) : (s.pushWord w).wrDirty = s.wrDirty := rfl
@[simp] theorem State.pushWord_rdDirty (s : State) (w : OpWord) : (s.pushWord w).rdDirty = s.rdDirty := rfl
@[simp] theorem State.pushWord_busy (s : State) (w : OpWord) : (s.pushWord w).busy = s.busy := rfl
@[simp] theorem State.pushWord_rdCall (s : State) (w : OpWord) : (s.pushWord w).rdCall = s.rdCall := rfl
@[simp] theorem State.pushWord_hMarker (s : State) (w : OpWord) : (s.pushWord w).hMarker = s.hMarker := rfl
@[simp] theorem State.pushWord_hDout (s : State) (w : OpWord) : (s.pushWord w).hDout = s.hDout := rfl
@[simp] theorem State.pushWord_hDin (s : State) (w : OpWord) : (s.pushWord w).hDin = s.hDin := rfl
@[simp] theorem State.pushWord_wCfg (s : State) (w : OpWord) : (s.pushWord w).wCfg = s.wCfg := rfl
@[simp] theorem State.pushWord_rCfg (s : State) (w : OpWord) : (s.pushWord w).rCfg = s.rCfg := rfl
@[simp] theorem State.pushWord_marker (s : State) (w : OpWord) : (s.pushWord w).marker = s.marker := rfl
@[simp] theorem State.pushWord_dout (s : State) (w : OpWord) : (s.pushWord w).dout = s.dout := rfl
@[simp] theorem State.pushWord_cell (s : State) (w : OpWord) : (s.pushWord w).cell = s.cell := rfl
@[simp] theorem State.pushWord_stop (s : State) (w : OpWord) : (s.pushWord w).stop = s.stop := rfl
@[simp] theorem State.pushWord_record (s : State) (w : OpWord) : (s.pushWord w).record = s.record := rfl
@[simp] theorem State.pushWord_err (s : State) (w : OpWord) : (s.pushWord w).err = s.err := rfl
@[simp] theorem State.pushWord_encValue (s : State) (w : OpWord) : (s.pushWord w).encValue = s.encValue := rfl
@[simp] theorem State.pushWord_decRb (s : State) (w : OpWord) : (s.pushWord w).decRb = s.decRb := rfl
@[simp] theorem State.pushWord_ret (s : State) (w : OpWord) : (s.pushWord w).ret = s.ret := rfl

@[simp] theorem State.takeFetch_pushWord (s : State) (w : OpWord) : (s.pushWord w).takeFetch = s := rfl

/-! Using up a failure directive. -/

@[simp] theorem State.useScripted_params (s : State) (op : OpId) : (s.useScripted op).params = s.params := rfl
@[simp] theorem State.useScripted_env (s : State) (op : OpId) : (s.useScripted op).env = { s.env with fails := s.env.fails.eraseP fun f => f.1 == op } := rfl
@[simp] theorem State.useScripted_queue (s : State) (op : OpId) : (s.useScripted op).queue = s.queue := rfl
@[simp] theorem State.useScripted_tick (s : State) (op : OpId) : (s.useScripted op).tick = s.tick := rfl
@[simp] theorem State.useScripted_edgeGap (s : State) (op : OpId) : (s.useScripted op).edgeGap = s.edgeGap := rfl
@[simp] theorem State.useScripted_boot (s : State) (op : OpId) : (s.useScripted op).boot = s.boot := rfl
@[simp] theorem State.useScripted_st (s : State) (op : OpId) : (s.useScripted op).st = s.st := rfl
@[simp] theorem State.useScripted_xs (s : State) (op : OpId) : (s.useScripted op).xs = s.xs := rfl
@[simp] theorem State.useScripted_lastObs (s : State) (op : OpId) : (s.useScripted op).lastObs = s.lastObs := rfl
@[simp] theorem State.useScripted_cap (s : State) (op : OpId) : (s.useScripted op).cap = s.cap := rfl
@[simp] theorem State.useScripted_rcv (s : State) (op : OpId) : (s.useScripted op).rcv = s.rcv := rfl
@[simp] theorem State.useScripted_matched (s : State) (op : OpId) : (s.useScripted op).matched = s.matched := rfl
@[simp] theorem State.useScripted_frameOk (s : State) (op : OpId) : (s.useScripted op).frameOk = s.frameOk := rfl
@[simp] theorem State.useScripted_cycErr (s : State) (op : OpId) : (s.useScripted op).cycErr = s.cycErr := rfl
@[simp] theorem State.useScripted_tStart (s : State) (op : OpId) : (s.useScripted op).tStart = s.tStart := rfl
@[simp] theorem State.useScripted_tx (s : State) (op : OpId) : (s.useScripted op).tx = s.tx := rfl
@[simp] theorem State.useScripted_rx (s : State) (op : OpId) : (s.useScripted op).rx = s.rx := rfl
@[simp] theorem State.useScripted_k (s : State) (op : OpId) : (s.useScripted op).k = s.k := rfl
@[simp] theorem State.useScripted_wrArmed (s : State) (op : OpId) : (s.useScripted op).wrArmed = s.wrArmed := rfl
@[simp] theorem State.useScripted_lateWrite (s : State) (op : OpId) : (s.useScripted op).lateWrite = s.lateWrite := rfl
@[simp] theorem State.useScripted_engRun (s : State) (op : OpId) : (s.useScripted op).engRun = s.engRun := rfl
@[simp] theorem State.useScripted_wrDirty (s : State) (op : OpId) : (s.useScripted op).wrDirty = s.wrDirty := rfl
@[simp] theorem State.useScripted_rdDirty (s : State) (op : OpId) : (s.useScripted op).rdDirty = s.rdDirty := rfl
@[simp] theorem State.useScripted_busy (s : State) (op : OpId) : (s.useScripted op).busy = s.busy := rfl
@[simp] theorem State.useScripted_rdCall (s : State) (op : OpId) : (s.useScripted op).rdCall = s.rdCall := rfl
@[simp] theorem State.useScripted_hMarker (s : State) (op : OpId) : (s.useScripted op).hMarker = s.hMarker := rfl
@[simp] theorem State.useScripted_hDout (s : State) (op : OpId) : (s.useScripted op).hDout = s.hDout := rfl
@[simp] theorem State.useScripted_hDin (s : State) (op : OpId) : (s.useScripted op).hDin = s.hDin := rfl
@[simp] theorem State.useScripted_wCfg (s : State) (op : OpId) : (s.useScripted op).wCfg = s.wCfg := rfl
@[simp] theorem State.useScripted_rCfg (s : State) (op : OpId) : (s.useScripted op).rCfg = s.rCfg := rfl
@[simp] theorem State.useScripted_marker (s : State) (op : OpId) : (s.useScripted op).marker = s.marker := rfl
@[simp] theorem State.useScripted_dout (s : State) (op : OpId) : (s.useScripted op).dout = s.dout := rfl
@[simp] theorem State.useScripted_cell (s : State) (op : OpId) : (s.useScripted op).cell = s.cell := rfl
@[simp] theorem State.useScripted_stop (s : State) (op : OpId) : (s.useScripted op).stop = s.stop := rfl
@[simp] theorem State.useScripted_record (s : State) (op : OpId) : (s.useScripted op).record = s.record := rfl
@[simp] theorem State.useScripted_err (s : State) (op : OpId) : (s.useScripted op).err = s.err := rfl
@[simp] theorem State.useScripted_encValue (s : State) (op : OpId) : (s.useScripted op).encValue = s.encValue := rfl
@[simp] theorem State.useScripted_decRb (s : State) (op : OpId) : (s.useScripted op).decRb = s.decRb := rfl
@[simp] theorem State.useScripted_ret (s : State) (op : OpId) : (s.useScripted op).ret = s.ret := rfl

/-! Pulsing the error output. -/

@[simp] theorem State.raise_params (s : State) (e : ErrorEvent) : (s.raise e).params = s.params := rfl
@[simp] theorem State.raise_env (s : State) (e : ErrorEvent) : (s.raise e).env = s.env := rfl
@[simp] theorem State.raise_queue (s : State) (e : ErrorEvent) : (s.raise e).queue = s.queue := rfl
@[simp] theorem State.raise_tick (s : State) (e : ErrorEvent) : (s.raise e).tick = s.tick := rfl
@[simp] theorem State.raise_edgeGap (s : State) (e : ErrorEvent) : (s.raise e).edgeGap = s.edgeGap := rfl
@[simp] theorem State.raise_boot (s : State) (e : ErrorEvent) : (s.raise e).boot = s.boot := rfl
@[simp] theorem State.raise_st (s : State) (e : ErrorEvent) : (s.raise e).st = s.st := rfl
@[simp] theorem State.raise_xs (s : State) (e : ErrorEvent) : (s.raise e).xs = s.xs := rfl
@[simp] theorem State.raise_lastObs (s : State) (e : ErrorEvent) : (s.raise e).lastObs = s.lastObs := rfl
@[simp] theorem State.raise_cap (s : State) (e : ErrorEvent) : (s.raise e).cap = s.cap := rfl
@[simp] theorem State.raise_rcv (s : State) (e : ErrorEvent) : (s.raise e).rcv = s.rcv := rfl
@[simp] theorem State.raise_matched (s : State) (e : ErrorEvent) : (s.raise e).matched = s.matched := rfl
@[simp] theorem State.raise_frameOk (s : State) (e : ErrorEvent) : (s.raise e).frameOk = s.frameOk := rfl
@[simp] theorem State.raise_cycErr (s : State) (e : ErrorEvent) : (s.raise e).cycErr = s.cycErr := rfl
@[simp] theorem State.raise_tStart (s : State) (e : ErrorEvent) : (s.raise e).tStart = s.tStart := rfl
@[simp] theorem State.raise_tx (s : State) (e : ErrorEvent) : (s.raise e).tx = s.tx := rfl
@[simp] theorem State.raise_rx (s : State) (e : ErrorEvent) : (s.raise e).rx = s.rx := rfl
@[simp] theorem State.raise_k (s : State) (e : ErrorEvent) : (s.raise e).k = s.k := rfl
@[simp] theorem State.raise_wrArmed (s : State) (e : ErrorEvent) : (s.raise e).wrArmed = s.wrArmed := rfl
@[simp] theorem State.raise_lateWrite (s : State) (e : ErrorEvent) : (s.raise e).lateWrite = s.lateWrite := rfl
@[simp] theorem State.raise_engRun (s : State) (e : ErrorEvent) : (s.raise e).engRun = s.engRun := rfl
@[simp] theorem State.raise_wrDirty (s : State) (e : ErrorEvent) : (s.raise e).wrDirty = s.wrDirty := rfl
@[simp] theorem State.raise_rdDirty (s : State) (e : ErrorEvent) : (s.raise e).rdDirty = s.rdDirty := rfl
@[simp] theorem State.raise_busy (s : State) (e : ErrorEvent) : (s.raise e).busy = s.busy := rfl
@[simp] theorem State.raise_rdCall (s : State) (e : ErrorEvent) : (s.raise e).rdCall = s.rdCall := rfl
@[simp] theorem State.raise_hMarker (s : State) (e : ErrorEvent) : (s.raise e).hMarker = s.hMarker := rfl
@[simp] theorem State.raise_hDout (s : State) (e : ErrorEvent) : (s.raise e).hDout = s.hDout := rfl
@[simp] theorem State.raise_hDin (s : State) (e : ErrorEvent) : (s.raise e).hDin = s.hDin := rfl
@[simp] theorem State.raise_wCfg (s : State) (e : ErrorEvent) : (s.raise e).wCfg = s.wCfg := rfl
@[simp] theorem State.raise_rCfg (s : State) (e : ErrorEvent) : (s.raise e).rCfg = s.rCfg := rfl
@[simp] theorem State.raise_marker (s : State) (e : ErrorEvent) : (s.raise e).marker = s.marker := rfl
@[simp] theorem State.raise_dout (s : State) (e : ErrorEvent) : (s.raise e).dout = s.dout := rfl
@[simp] theorem State.raise_cell (s : State) (e : ErrorEvent) : (s.raise e).cell = s.cell := rfl
@[simp] theorem State.raise_stop (s : State) (e : ErrorEvent) : (s.raise e).stop = s.stop := rfl
@[simp] theorem State.raise_record (s : State) (e : ErrorEvent) : (s.raise e).record = s.record := rfl
@[simp] theorem State.raise_err (s : State) (e : ErrorEvent) : (s.raise e).err = some e := rfl
@[simp] theorem State.raise_encValue (s : State) (e : ErrorEvent) : (s.raise e).encValue = s.encValue := rfl
@[simp] theorem State.raise_decRb (s : State) (e : ErrorEvent) : (s.raise e).decRb = s.decRb := rfl
@[simp] theorem State.raise_ret (s : State) (e : ErrorEvent) : (s.raise e).ret = s.ret := rfl

end Sys2Proof.Machine
end

