-- ==== Sys2Proof/Laws/Ops.lean ====
section
/-!
SUPPORT. One lemma per shared operation that says once everything it can do: an operation that branches is
one record update whose fields carry the branch.
-/

namespace Sys2Proof.Machine

/-! Outcomes, guards and waiting. -/

/-- What goes on from an outcome answers a next state only through a next state. -/
theorem Result.andThen_next {r : Result} {f : State → Result} {s' : State} (h : r.andThen f = .next s') :
    ∃ t, r = .next t ∧ f t = .next s' := by
  cases r with
  | next t => exact ⟨t, rfl, h⟩
  | fault e => cases h
  | refused e => cases h

@[simp] theorem Result.andThen_of_next (t : State) (f : State → Result) :
    Result.andThen (.next t) f = f t := rfl

@[simp] theorem Result.andThen_of_fault (e : Fault) (f : State → Result) :
    Result.andThen (.fault e) f = .fault e := rfl

theorem Params.wf_eq_true {p : Params} : p.wf = true ↔ 1 ≤ p.R := by simp [Params.wf]

/-- A step that uses R runs when R ≥ 1. -/
theorem State.withRepeat_of {s : State} (r : Result) (h : 1 ≤ s.params.R) : s.withRepeat r = r := by
  simp [State.withRepeat, Params.wf, h]

/-- A step that uses R is refused when R = 0. -/
theorem State.withRepeat_zero {s : State} (r : Result) (h : s.params.R = 0) :
    s.withRepeat r = .refused .badRepeatFactor := by
  simp [State.withRepeat, Params.wf, h]

/-- A step that uses R answers a next state only when R ≥ 1. -/
theorem State.withRepeat_next {s s' : State} {r : Result} (h : s.withRepeat r = .next s') :
    1 ≤ s.params.R ∧ r = .next s' := by
  unfold State.withRepeat at h
  split at h
  · exact ⟨Params.wf_eq_true.1 ‹_›, h⟩
  · cases h

theorem State.codesLegal_eq_true {s : State} : s.codesLegal = true ↔ s.st.toNat ≤ 5 ∧ s.xs.toNat ≤ 4 := by
  simp [State.codesLegal]

/-- With legal codes an FSM action is what it says. -/
theorem State.fsmAction_of {s : State} (r : Result) (h : s.codesLegal = true) : s.fsmAction r = r := by
  simp [State.fsmAction, h]

/-- With a reserved code an FSM action faults. -/
theorem State.fsmAction_reserved {s : State} (r : Result) (h : s.codesLegal = false) :
    s.fsmAction r = .fault .reservedState := by
  simp [State.fsmAction, h]

/-- An FSM action answers a next state only with legal codes. -/
theorem State.fsmAction_next {s s' : State} {r : Result} (h : s.fsmAction r = .next s') :
    s.codesLegal = true ∧ r = .next s' := by
  unfold State.fsmAction at h
  split at h
  · exact ⟨‹_›, h⟩
  · cases h

/-- A step that makes a call either runs it or leaves the state. -/
theorem State.whenCompletes_cases (s : State) (op : OpId) (f : State → State) :
    (s.completes op = true ∧ s.whenCompletes op f = f s) ∨
      (s.completes op = false ∧ s.whenCompletes op f = s) := by
  unfold State.whenCompletes
  cases s.completes op <;> simp

theorem State.whenCompletes_of_completes {s : State} {op : OpId} (f : State → State)
    (h : s.completes op = true) : s.whenCompletes op f = f s := by
  simp [State.whenCompletes, h]

/-! Errors and flags. -/

theorem State.raiseDriver_eq (s : State) (op : OpId) (st : DriverStatus) :
    s.raiseDriver op st =
      { s with err := if st = 0 then s.err else some (.driverCallFailed op st) } := by
  unfold State.raiseDriver State.raise
  split <;> rfl

theorem State.raiseMismatch_eq (s : State) (v w : Word) :
    s.raiseMismatch v w = { s with err := if w = v then s.err else some (.roundtripMismatch v w) } := by
  unfold State.raiseMismatch State.raise
  split <;> rfl

theorem State.markFailure_eq (s : State) (st : DriverStatus) :
    s.markFailure st = { s with cycErr := if st = 0 then s.cycErr else true } := by
  unfold State.markFailure
  split <;> rfl

theorem State.noteCall_eq (s : State) (op : OpId) (st : DriverStatus) :
    s.noteCall op st =
      { s with
        err := if st = 0 then s.err else some (.driverCallFailed op st)
        cycErr := if st = 0 then s.cycErr else true } := by
  simp [State.noteCall, State.raiseDriver_eq, State.markFailure_eq]

theorem State.stopFlags_eq (s : State) (h : Line) (st : DriverStatus) :
    s.stopFlags h st =
      { s with
        wrArmed := if h = .dataOut ∧ st = 0 then false else s.wrArmed
        wrDirty := if h = .dataOut then st != 0 else s.wrDirty
        engRun := if h = .dataIn ∧ st = 0 then false else s.engRun
        rdDirty := if h = .dataIn then st != 0 else s.rdDirty } := by
  by_cases h0 : st = 0 <;> cases h <;> simp [State.stopFlags, h0]

/-! Handles, configurations and boot. -/

theorem State.setHandle_eq (s : State) (l : Line) (h : Handle) :
    s.setHandle l h =
      { s with
        hMarker := if l = .marker then some h else s.hMarker
        hDout := if l = .dataOut then some h else s.hDout
        hDin := if l = .dataIn then some h else s.hDin } := by
  cases l <;> simp [State.setHandle]

theorem State.setClockCfg_eq (s : State) (l : Line) (c : ClockCfg) :
    s.setClockCfg l c =
      { s with
        wCfg := if l = .dataOut then some c else s.wCfg
        rCfg := if l = .dataIn then some c else s.rCfg } := by
  cases l <;> simp [State.setClockCfg]

theorem State.bootReturn_eq (s : State) (p : BootPhase) :
    s.bootReturn p = { s with boot := if s.boot = p then p.next else s.boot } := by
  unfold State.bootReturn
  split <;> rfl

theorem State.openHandle_eq (s : State) (l : Line) (st : DriverStatus) :
    s.openHandle l st =
      { s with
        hMarker := if st = 0 ∧ l = .marker then some ⟨s.params.spec l, s.tick⟩ else s.hMarker
        hDout := if st = 0 ∧ l = .dataOut then some ⟨s.params.spec l, s.tick⟩ else s.hDout
        hDin := if st = 0 ∧ l = .dataIn then some ⟨s.params.spec l, s.tick⟩ else s.hDin } := by
  by_cases h0 : st = 0 <;> simp [State.openHandle, State.setHandle_eq, h0]

theorem State.writeCfg_eq (s : State) (h : Line) (c : ClockCfg) (st : DriverStatus) :
    s.writeCfg h c st =
      { s with
        wCfg := if st = 0 ∧ h = .dataOut then some c else s.wCfg
        rCfg := if st = 0 ∧ h = .dataIn then some c else s.rCfg } := by
  by_cases h0 : st = 0 <;> simp [State.writeCfg, State.setClockCfg_eq, h0]

/-! Statuses. -/

/-- Under DRIVER_COMPLETES every call completes. -/
theorem State.driverCompletes_completes {s : State} (h : s.driverCompletes) (op : OpId) :
    s.completes op = true := by
  simp [State.completes, show s.env.driverCompletes = true from h]

/-- Under DRIVER_COMPLETES the outstanding READ_CLK returns. -/
theorem State.driverCompletes_readReturns {s : State} (h : s.driverCompletes) : s.readReturns = true := by
  simp [State.readReturns, show s.env.driverCompletes = true from h]

/-- Under DRIVER_OK the raw status is 0. -/
theorem State.driverOk_rawStatus {s : State} (h : s.driverOk) (op : OpId) : s.rawStatus op = 0 := by
  simp [State.rawStatus, State.scripted, h.1, h.2]

/-- DRIVER_OK survives the start of a step. -/
theorem State.driverOk_begin {s : State} (h : s.driverOk) : s.begin.driverOk := h

/-- DRIVER_COMPLETES survives the start of a step. -/
theorem State.driverCompletes_begin {s : State} (h : s.driverCompletes) : s.begin.driverCompletes := h

/-- Under DRIVER_OK a call uses up no directive. -/
theorem State.driverOk_useScripted {s : State} (h : s.driverOk) (op : OpId) :
    (s.useScripted op).env = s.env := by
  obtain ⟨-, h⟩ := h
  simp only [State.useScripted_env, h, List.eraseP_nil]
  rw [← h]

theorem failureStatus_ne_zero (x : Int) : failureStatus x ≠ 0 := by
  unfold failureStatus
  split <;> (change (_ : Int) ≠ (0 : Int); omega)

/-- A usable channel's call returns the raw status. -/
theorem State.callStatus_usable (s : State) (op : OpId) : s.callStatus op true = s.rawStatus op := by
  simp [State.callStatus]

/-! Buffers. -/

/-- A buffer whose every digit is written reads whole. -/
theorem allWritten_map_some (q : Digits) : allWritten (q.map some) = some q := by
  induction q with
  | nil => rfl
  | cons d q ih => simp [allWritten, ih]

/-- A buffer reads whole exactly when it is the written form of a sequence. -/
theorem allWritten_eq_some {l : List (Option Bool)} {q : Digits} :
    allWritten l = some q ↔ l = q.map some := by
  constructor
  · intro h
    induction l generalizing q with
    | nil => simp [allWritten] at h; simp [h]
    | cons a l ih =>
      cases a with
      | none => simp [allWritten] at h
      | some d =>
        simp only [allWritten] at h
        cases hl : allWritten l with
        | none => simp [hl] at h
        | some ds =>
          simp only [hl, Option.some.injEq] at h
          subst h
          simp [ih hl]
  · rintro rfl
    exact allWritten_map_some q

/-! The calls. -/

theorem State.openLine_eq (s : State) (l : Line) :
    s.openLine l =
      { s.useScripted opOpenLine with
        hMarker := if s.rawStatus opOpenLine = 0 ∧ l = .marker then some ⟨s.params.spec l, s.tick⟩ else s.hMarker
        hDout := if s.rawStatus opOpenLine = 0 ∧ l = .dataOut then some ⟨s.params.spec l, s.tick⟩ else s.hDout
        hDin := if s.rawStatus opOpenLine = 0 ∧ l = .dataIn then some ⟨s.params.spec l, s.tick⟩ else s.hDin
        err := if s.rawStatus opOpenLine = 0 then s.err
          else some (.driverCallFailed opOpenLine (s.rawStatus opOpenLine))
        boot := if s.boot = openPhase l then (openPhase l).next else s.boot
        ret := .opened (s.rawStatus opOpenLine) (s.rawStatus opOpenLine == 0) } := by
  simp only [State.openLine, State.callStatus_usable, State.bootReturn_eq, State.raiseDriver_eq,
    State.openHandle_eq]
  rfl

theorem State.configure_eq (s : State) (h : Line) (c : ClockCfg) :
    s.configure h c =
      { s.useScripted opConfigure with
        wCfg := if s.callStatus opConfigure (s.handle h).isSome = 0 ∧ h = .dataOut then some c else s.wCfg
        rCfg := if s.callStatus opConfigure (s.handle h).isSome = 0 ∧ h = .dataIn then some c else s.rCfg
        err := if s.callStatus opConfigure (s.handle h).isSome = 0 then s.err
          else some (.driverCallFailed opConfigure (s.callStatus opConfigure (s.handle h).isSome))
        boot := if s.boot = configurePhase h then (configurePhase h).next else s.boot
        ret := .status (s.callStatus opConfigure (s.handle h).isSome) } := by
  simp only [State.configure, State.bootReturn_eq, State.raiseDriver_eq, State.writeCfg_eq]
  rfl

/-- READ_CLK is issued, completed, or still outstanding. -/
theorem State.readClk_cases (s : State) :
    (s.rdCall = none ∧ s.readClk = .next s.readClkIssue) ∨
      (s.rdCall ≠ none ∧ (s.engRun = true ∨ s.readReturns = false) ∧ s.readClk = .next s) ∨
      (s.rdCall ≠ none ∧ s.engRun = false ∧ s.readReturns = true ∧ s.readClk = s.readClkComplete) := by
  unfold State.readClk
  cases hc : s.rdCall <;> cases he : s.engRun <;> cases hr : s.readReturns <;> simp

/-- The completion of a read whose every digit is written returns them. -/
theorem State.readClkComplete_of {s : State} {q : Digits} (h : s.rxAfter = q.map some) :
    s.readClkComplete =
      .next { s with rx := q.map some, rdCall := none, ret := .readback s.readCall.status q } := by
  simp [State.readClkComplete, h, allWritten_map_some]

/-- The completion answers a next state only when every digit of `rx` is written. -/
theorem State.readClkComplete_next {s s' : State} (h : s.readClkComplete = .next s') :
    ∃ q : Digits, s.rxAfter = q.map some ∧
      s' = { s with rx := q.map some, rdCall := none, ret := .readback s.readCall.status q } := by
  unfold State.readClkComplete at h
  split at h
  · cases h
  · rename_i q hq
    injection h with h
    have hq := allWritten_eq_some.1 hq
    exact ⟨q, hq, by rw [← h, hq]⟩

/-- A sample edge with the index in range, and what it drives. -/
theorem State.sampleEdge_next {s s' : State} (h : s.sampleEdge = .next s') :
    (s.engRun = false ∧ s' = s) ∨
      (s.engRun = true ∧ 1 ≤ s.params.R ∧ s.k ≤ physLen s.params.R ∧ s.k < s.rx.length ∧
        ∃ d, s.driveLevel = .ok d ∧ s' = s.edgeTo d) := by
  unfold State.sampleEdge at h
  split at h
  · rename_i he
    injection h with h
    exact .inl ⟨he, h.symm⟩
  · rename_i he
    obtain ⟨hR, h⟩ := State.withRepeat_next h
    unfold State.runEdge at h
    split at h
    · cases h
    · rename_i hk
      split at h
      · cases h
      · rename_i d hd
        injection h with h
        refine .inr ⟨by simpa using he, hR, by omega, by omega, d, hd, h.symm⟩

/-- What an armed write drives: the digit of this edge; otherwise the line keeps its level. -/
theorem State.driveLevel_ok {s : State} {d : Bool} (h : s.driveLevel = .ok d) :
    (s.wrArmed = true ∧ s.lateWrite = false ∧ s.k < physLen s.params.R ∧ ∃ t, s.tx = some t ∧ t[s.k]? = some d) ∨
      ((s.wrArmed = false ∨ s.lateWrite = true ∨ physLen s.params.R ≤ s.k) ∧ d = s.dout) := by
  unfold State.driveLevel at h
  split at h
  · rename_i hc
    split at h
    · cases h
    · rename_i t ht
      split at h
      · cases h
      · rename_i d' hd
        injection h with h
        exact .inl ⟨hc.1, hc.2.1, hc.2.2, t, ht, h ▸ hd⟩
  · rename_i hc
    injection h with h
    refine .inr ⟨?_, h.symm⟩
    cases ha : s.wrArmed
    · exact .inl rfl
    · cases hl : s.lateWrite
      · exact .inr (.inr (by simpa [ha, hl] using hc))
      · exact .inr (.inl rfl)

end Sys2Proof.Machine
end

