-- ==== Sys2Proof/Laws/Units.lean ====
section
/-!
SUPPORT. What the combinational units compute, digit by digit and bit by bit.
-/

namespace Sys2Proof.Machine

/-! ENC. -/

/-- The bits of a frame word: END below, the value in the middle, START above (R62). -/
theorem encoderFrame_getLsbD (v : Word) (i : Nat) :
    (encoderFrame v).getLsbD i =
      if i < 2 then (0b10#2).getLsbD i
      else if i < 66 then v.getLsbD (i - 2)
      else (0b01#2).getLsbD (i - 66) := by
  unfold encoderFrame
  rw [BitVec.getLsbD_append, BitVec.getLsbD_append]
  split
  · rfl
  · rename_i h
    by_cases h2 : i < 66
    · have : i - 2 < 64 := by omega
      simp [h2, this]
    · have : ¬ i - 2 < 64 := by omega
      simp only [h2, this, if_false]
      congr 1

theorem encoderSeq_getElem? (v : Word) (R j : Nat) :
    (encoderSeq v R)[j]? = if j < physLen R then some (encoderLogical v (j / R)) else none := by
  unfold encoderSeq
  split
  · rename_i h
    simp [h]
  · rename_i h
    simp
    omega

theorem encoderRefusal_eq_none {R : Nat} : encoderRefusal R = none ↔ 1 ≤ R := by
  unfold encoderRefusal
  split <;> simp <;> omega

/-! DEC. -/

/-- A logical digit is the digit after the leading sample and `b` repeat blocks (R67). -/
theorem decoderLogical_eq (q : Digits) (R b : Nat) :
    decoderLogical q R b = q.getD (1 + b * R) false := by
  unfold decoderLogical
  simp [List.getD_eq_getElem?_getD, Nat.add_comm]

/-- Most-significant-first assembly of `n` digits as a natural number. -/
theorem foldl_digits_testBit (f : Nat → Bool) (n i : Nat) :
    ((List.range n).foldl (fun acc i => 2 * acc + (f i).toNat) 0).testBit i =
      (decide (i < n) && f (n - 1 - i)) := by
  induction n generalizing i with
  | zero => simp
  | succ n ih =>
    rw [List.range_succ, List.foldl_append]
    simp only [List.foldl_cons, List.foldl_nil]
    generalize hacc : (List.range n).foldl (fun acc i => 2 * acc + (f i).toNat) 0 = acc at ih
    cases i with
    | zero =>
      cases hf : f n <;> simp [Nat.testBit_zero, hf]
    | succ i =>
      have hdiv : (2 * acc + (f n).toNat) / 2 = acc := by
        have := Bool.toNat_lt (f n)
        omega
      rw [Nat.testBit_succ, hdiv, ih]
      by_cases hi : i < n
      · have : n - (i + 1) = n - 1 - i := by omega
        simp [hi, this]
      · simp [hi]

/-- Bit `i` of a decoded value is logical digit `65 - i` (R68). -/
theorem decoderValue_getLsbD (q : Digits) (R i : Nat) (h : i < 64) :
    (decoderValue q R).getLsbD i = decoderLogical q R (65 - i) := by
  unfold decoderValue
  rw [BitVec.getLsbD_ofNat, foldl_digits_testBit (fun i => decoderLogical q R (2 + i))]
  have : 2 + (64 - 1 - i) = 65 - i := by omega
  simp [h, this]

theorem decoderRefusal_eq_none {q : Digits} {R : Nat} :
    decoderRefusal q R = none ↔ 1 ≤ R ∧ q.length = rbLen R := by
  unfold decoderRefusal
  split
  · simp; omega
  · split
    · simp_all; omega
    · simp_all

end Sys2Proof.Machine
end

