-- ==== Sys2Proof/Laws/Fsm.lean ====
section
/-!
SUPPORT. One lemma per action of the FSM that says once what it leaves.
-/

namespace Sys2Proof.Machine

/-- One poll exits, captures or waits (R96). -/
theorem State.idle_cases (s : State) :
    (s.stop = true ∧ s.idle = { s with st := stExitedCode }) ∨
      (s.stop = false ∧ s.cell ≠ s.lastObs ∧
        s.idle =
          { s with cap := some s.cell, lastObs := s.cell, cycErr := false, st := stMarkerAssertedCode }) ∨
      (s.stop = false ∧ s.cell = s.lastObs ∧ s.idle = { s with st := stIdleCode }) := by
  unfold State.idle State.stopRead State.cellRead
  cases hs : s.stop
  · by_cases hc : s.cell = s.lastObs
    · exact .inr (.inr ⟨rfl, hc, by simp [hc]⟩)
    · exact .inr (.inl ⟨rfl, hc, by simp [hc]⟩)
  · exact .inl ⟨rfl, by simp⟩

theorem State.assertMarker_eq (s : State) :
    s.assertMarker =
      { s.useScripted opWriteImm with
        marker := s.markerAfter true s.writeImmStatus
        ret := .status s.writeImmStatus
        err := if s.writeImmStatus = 0 then s.err else some (.driverCallFailed opWriteImm s.writeImmStatus)
        cycErr := if s.writeImmStatus = 0 then s.cycErr else true
        tStart := some (Config.freeTime s.tick)
        xs := xsArmCode
        st := stXferCode } := by
  simp only [State.assertMarker, State.noteCall_eq, State.writeImm]
  rfl

theorem State.deassertMarker_eq (s : State) :
    s.deassertMarker =
      { s.useScripted opWriteImm with
        marker := s.markerAfter false s.writeImmStatus
        ret := .status s.writeImmStatus
        err := if s.writeImmStatus = 0 then s.err else some (.driverCallFailed opWriteImm s.writeImmStatus)
        cycErr := if s.writeImmStatus = 0 then s.cycErr else true
        st := stVerifiedCode } := by
  simp only [State.deassertMarker, State.noteCall_eq, State.writeImm]
  rfl

theorem State.armWrite_eq (s : State) (v : Word) :
    s.armWrite v =
      { s.useScripted opWriteClk with
        tx := some (encoderSeq v s.params.R)
        wrArmed := s.armedAfter s.writeClkStatus
        lateWrite := s.engRun
        ret := .status s.writeClkStatus
        err := if s.writeClkStatus = 0 then s.err else some (.driverCallFailed opWriteClk s.writeClkStatus)
        cycErr := if s.writeClkStatus = 0 then s.cycErr else true
        encValue := v
        xs := xsStartCode } := by
  simp only [State.armWrite, State.noteCall_eq, State.writeClk]
  rfl

/-- ARM answers a next state only for a captured value and a legal R; it then arms or waits. -/
theorem State.xferArm_next {s s' : State} (h : s.xferArm = .next s') :
    ∃ v, s.cap = some v ∧ 1 ≤ s.params.R ∧ s' = s.whenCompletes opWriteClk fun t => t.armWrite v := by
  unfold State.xferArm at h
  split at h
  · cases h
  · rename_i v hv
    split at h
    · cases h
    · rename_i hr
      injection h with h
      exact ⟨v, hv, encoderRefusal_eq_none.1 hr, h.symm⟩

/-- START answers a next state only for a legal R. -/
theorem State.xferStart_next {s s' : State} (h : s.xferStart = .next s') :
    1 ≤ s.params.R ∧ s' = { s.readClkIssue with busy := true, xs := xsWaitCode } := by
  obtain ⟨hR, h⟩ := State.withRepeat_next h
  injection h with h
  exact ⟨hR, h.symm⟩

/-- The state after WAIT has taken a completion that returned the digits `q` (R100). -/
def State.waitDone (s : State) (q : Digits) : State :=
  { s with
    rx := q.map some
    rdCall := none
    ret := .readback s.readCall.status q
    err := if s.readCall.status = 0 then s.err else some (.driverCallFailed opReadClk s.readCall.status)
    cycErr := if s.readCall.status = 0 then s.cycErr else true
    busy := false
    xs := xsStopWCode }

/-- WAIT waits. -/
theorem State.xferWait_waits {s : State} (h : s.engRun = true ∨ s.readReturns = false) :
    s.xferWait = .next s := by
  unfold State.xferWait
  rcases h with h | h <;> simp [h]

/-- WAIT takes the completion of a read whose every digit is written. -/
theorem State.xferWait_of {s : State} {q : Digits} (he : s.engRun = false) (hr : s.readReturns = true)
    (hR : 1 ≤ s.params.R) (hq : s.rxAfter = q.map some) : s.xferWait = .next (s.waitDone q) := by
  simp [State.xferWait, State.withRepeat_of _ hR, State.readClkComplete_of hq, State.noteCall_eq, he, hr,
    State.waitDone]

/-- WAIT answers a next state only by waiting or by taking such a completion. -/
theorem State.xferWait_next {s s' : State} (h : s.xferWait = .next s') :
    ((s.engRun = true ∨ s.readReturns = false) ∧ s' = s) ∨
      (s.engRun = false ∧ s.readReturns = true ∧ 1 ≤ s.params.R ∧
        ∃ q : Digits, s.rxAfter = q.map some ∧ s' = s.waitDone q) := by
  by_cases hw : s.engRun = true ∨ s.readReturns = false
  · rw [State.xferWait_waits hw] at h
    injection h with h
    exact .inl ⟨hw, h.symm⟩
  · have he : s.engRun = false := by simpa using fun h => hw (.inl h)
    have hr : s.readReturns = true := by simpa using fun h => hw (.inr h)
    have hg := h
    simp only [State.xferWait, he, hr, Bool.not_true, Bool.or_self, Bool.false_eq_true, if_false] at hg
    obtain ⟨hR, hg⟩ := State.withRepeat_next hg
    obtain ⟨t, ht, -⟩ := Result.andThen_next hg
    obtain ⟨q, hq, -⟩ := State.readClkComplete_next ht
    rw [State.xferWait_of he hr hR hq] at h
    injection h with h
    exact .inr ⟨he, hr, hR, q, hq, h.symm⟩

theorem State.stopWriteChannel_eq (s : State) :
    s.stopWriteChannel =
      { s.useScripted opStopClk with
        wrArmed := if s.stopClkStatus .dataOut = 0 then false else s.wrArmed
        wrDirty := s.stopClkStatus .dataOut != 0
        ret := .status (s.stopClkStatus .dataOut)
        err := if s.stopClkStatus .dataOut = 0 then s.err
          else some (.driverCallFailed opStopClk (s.stopClkStatus .dataOut))
        cycErr := if s.stopClkStatus .dataOut = 0 then s.cycErr else true
        xs := xsStopRCode } := by
  simp only [State.stopWriteChannel, State.noteCall_eq, State.stopClk, State.stopFlags_eq]
  simp

theorem State.stopReadChannel_eq (s : State) :
    s.stopReadChannel =
      { s.useScripted opStopClk with
        engRun := if s.stopClkStatus .dataIn = 0 then false else s.engRun
        rdDirty := s.stopClkStatus .dataIn != 0
        ret := .status (s.stopClkStatus .dataIn)
        err := if s.stopClkStatus .dataIn = 0 then s.err
          else some (.driverCallFailed opStopClk (s.stopClkStatus .dataIn))
        cycErr := if s.stopClkStatus .dataIn = 0 then s.cycErr else true
        st := stMarkerDeassertedCode } := by
  simp only [State.stopReadChannel, State.noteCall_eq, State.stopClk, State.stopFlags_eq]
  simp

theorem State.verify_eq (s : State) (v : Word) (q : Digits) (t0 : Time) :
    s.verify v q t0 =
      { s with
        matched := decide (decoderValue q s.params.R = v)
        frameOk := decoderFrameOk q s.params.R
        err := if decoderValue q s.params.R = v then s.err
          else some (.roundtripMismatch v (decoderValue q s.params.R))
        rcv := some (decoderValue q s.params.R)
        decRb := q
        record := some
          { sent := v
            received := decoderValue q s.params.R
            matched := decide (decoderValue q s.params.R = v)
            frameOk := decoderFrameOk q s.params.R
            driverErr := s.cycErr
            latency := Config.freeLatency s.tick t0 }
        st := stIdleCode } := by
  simp only [State.verify, State.verifyFlags, State.raiseMismatch_eq]

/-- VERIFIED answers a next state only with every operand written and the read-back of its length. -/
theorem State.verified_next {s s' : State} (h : s.verified = .next s') :
    ∃ v q t0, s.cap = some v ∧ s.rx = q.map some ∧ s.tStart = some t0 ∧ 1 ≤ s.params.R ∧
      q.length = rbLen s.params.R ∧ s' = s.verify v q t0 := by
  unfold State.verified at h
  split at h
  · cases h
  · rename_i v hv
    split at h
    · cases h
    · rename_i q hq
      split at h
      · cases h
      · rename_i t0 ht
        split at h
        · cases h
        · rename_i hr
          injection h with h
          have hr := decoderRefusal_eq_none.1 hr
          exact ⟨v, q, t0, hv, allWritten_eq_some.1 hq, ht, hr.1, hr.2, h.symm⟩

end Sys2Proof.Machine
end

