-- ==== Sys2Proof/Laws/Exec.lean ====
section
/-!
SUPPORT. Everything an instruction can do when it answers a next state, said once: `exec_next` lists the
forms, and the equations of Laws/Ops.lean and Laws/Fsm.lean give each form's fields.
-/

namespace Sys2Proof.Machine

/-- The next states an action can give, one constructor per form.  `waits` is a call the DRIVER does not
complete, an edge while the engine does not run, or a turn in EXITED. -/
inductive NextForm (s : State) : Instr → State → Prop
  | encode (v) : 1 ≤ s.params.R → NextForm s (.encode v)
      { s.begin with encValue := v, ret := .frame (encoderFrame v) (encoderSeq v s.params.R) }
  | decode (q) : 1 ≤ s.params.R → q.length = rbLen s.params.R → NextForm s (.decode q)
      { s.begin with decRb := q, ret := .value (decoderValue q s.params.R) }
  | frameCheck (q) : 1 ≤ s.params.R → q.length = rbLen s.params.R → NextForm s (.frameCheck q)
      { s.begin with decRb := q, ret := .bit (decoderFrameOk q s.params.R) }
  | cellSet (v) : NextForm s (.cellSet v) { s.begin with cell := v }
  | cellGet : NextForm s .cellGet { s.begin with ret := .value s.cell }
  | stopReq : NextForm s .stopReq { s.begin with stop := true }
  | reset : NextForm s .reset s.begin.afterReset
  | openLine (l) : s.begin.completes opOpenLine = true → NextForm s (.openLine l) (s.begin.openLine l)
  | configure (h c) : 1 ≤ s.params.R → s.params.legalCfg h = some c →
      s.begin.completes opConfigure = true → NextForm s (.configure h c) (s.begin.configure h c)
  | writeImm (b) : s.begin.completes opWriteImm = true →
      NextForm s (.writeImm .marker b) (s.begin.writeImm b)
  | writeClk (bits) : 1 ≤ s.params.R → bits.length = physLen s.params.R → s.begin.completes opWriteClk = true →
      NextForm s (.writeClk .dataOut bits) (s.begin.writeClk bits)
  | readIssue : 1 ≤ s.params.R → s.rdCall = none →
      NextForm s (.readClk .dataIn (rbLen s.params.R)) s.begin.readClkIssue
  | readComplete (q) : 1 ≤ s.params.R → s.rdCall ≠ none → s.engRun = false → s.begin.readReturns = true →
      s.begin.rxAfter = q.map some → NextForm s (.readClk .dataIn (rbLen s.params.R))
      { s.begin with rx := q.map some, rdCall := none, ret := .readback s.begin.readCall.status q }
  | stopClk (h) : h ≠ .marker → s.begin.completes opStopClk = true →
      NextForm s (.stopClk h) (s.begin.stopClk h)
  | edge (d) : s.engRun = true → 1 ≤ s.params.R → s.k ≤ physLen s.params.R → s.k < s.rx.length →
      s.begin.driveLevel = .ok d → NextForm s .sampleEdge (s.begin.edgeTo d)
  | idleExit : s.stop = true → NextForm s .stIdle { s.begin with st := stExitedCode }
  | idleCapture : s.stop = false → s.cell ≠ s.lastObs → NextForm s .stIdle
      { s.begin with cap := some s.cell, lastObs := s.cell, cycErr := false, st := stMarkerAssertedCode }
  | idleStay : s.stop = false → s.cell = s.lastObs → NextForm s .stIdle { s.begin with st := stIdleCode }
  | assert : s.begin.completes opWriteImm = true → NextForm s .stMarkerAsserted s.begin.assertMarker
  | deassert : s.begin.completes opWriteImm = true → NextForm s .stMarkerDeasserted s.begin.deassertMarker
  | arm (v) : s.cap = some v → 1 ≤ s.params.R → s.begin.completes opWriteClk = true →
      NextForm s .xsArm (s.begin.armWrite v)
  | start : 1 ≤ s.params.R →
      NextForm s .xsStart { s.begin.readClkIssue with busy := true, xs := xsWaitCode }
  | complete (q) : s.engRun = false → s.begin.readReturns = true → 1 ≤ s.params.R →
      s.begin.rxAfter = q.map some → NextForm s .xsWait (s.begin.waitDone q)
  | stopWrite : s.begin.completes opStopClk = true → NextForm s .xsStopW s.begin.stopWriteChannel
  | stopRead : s.begin.completes opStopClk = true → NextForm s .xsStopR s.begin.stopReadChannel
  | verify (v q t0) : s.cap = some v → s.rx = q.map some → s.tStart = some t0 → 1 ≤ s.params.R →
      q.length = rbLen s.params.R → NextForm s .stVerified (s.begin.verify v q t0)
  | waits (i) : i ≠ .reset → i ≠ .stIdle → i ≠ .stVerified → i ≠ .xsStart →
      (i = .xsWait → s.engRun = true ∨ s.begin.readReturns = false) →
      (i = .stMarkerAsserted ∨ i = .stMarkerDeasserted → s.begin.completes opWriteImm = false) →
      (i = .xsArm → s.begin.completes opWriteClk = false) →
      (i = .xsStopW ∨ i = .xsStopR → s.begin.completes opStopClk = false) → NextForm s i s.begin

/-- In XFER the FSM runs the action of the sub-state (R93). -/
theorem exec_actionRow (s : State) (i : Instr) : exec (s.actionRow i) s = exec i s := by
  unfold State.actionRow
  split
  · rename_i h
    subst h
    generalize hx : s.xs = c
    have hc : ∀ c : Code3, c = 0 ∨ c = 1 ∨ c = 2 ∨ c = 3 ∨ c = 4 ∨ c = 5 ∨ c = 6 ∨ c = 7 := by decide
    rcases hc c with rfl | rfl | rfl | rfl | rfl | rfl | rfl | rfl <;>
      simp [exec, execStXfer, State.fsmAction, hx, decodeSub, execXsArm, execXsStart, execXsWait, execXsStopW, execXsStopR,
        execXsReserved5, execXsReserved6, execXsReserved7]
  · rfl

theorem decodeSub_ne_stXfer : ∀ c : Code3, decodeSub c ≠ .stXfer := by decide

theorem State.actionRow_ne_stXfer (s : State) (i : Instr) : s.actionRow i ≠ .stXfer := by
  unfold State.actionRow
  split
  · exact decodeSub_ne_stXfer _
  · assumption

/-- The forms of every instruction but XFER, which runs another. -/
theorem exec_next_of_ne {s s' : State} {i : Instr} (hx : i ≠ .stXfer) (h : exec i s = .next s') :
    NextForm s i s' := by
  have when_next : ∀ {op : OpId} {f : State → State},
      Host.Outcome.next (s.begin.whenCompletes op f) = (Host.Outcome.next s' : Result) →
      (s.begin.completes op = true ∧ s' = f s.begin) ∨ (s.begin.completes op = false ∧ s' = s.begin) := by
    intro op f h
    injection h with h
    rcases State.whenCompletes_cases s.begin op f with ⟨a, b⟩ | ⟨a, b⟩
    · exact .inl ⟨a, by rw [← h, b]⟩
    · exact .inr ⟨a, by rw [← h, b]⟩
  cases i with
  | encode v =>
    simp only [exec, execEncode] at h
    split at h <;> cases h
    rename_i hr
    exact .encode v (encoderRefusal_eq_none.1 hr)
  | decode q =>
    simp only [exec, execDecode] at h
    split at h <;> cases h
    rename_i hr
    exact .decode q (decoderRefusal_eq_none.1 hr).1 (decoderRefusal_eq_none.1 hr).2
  | frameCheck q =>
    simp only [exec, execFrameCheck] at h
    split at h <;> cases h
    rename_i hr
    exact .frameCheck q (decoderRefusal_eq_none.1 hr).1 (decoderRefusal_eq_none.1 hr).2
  | cellSet v => cases h; exact .cellSet v
  | cellGet => cases h; exact .cellGet
  | stopReq => cases h; exact .stopReq
  | openLine l =>
    rcases when_next h with ⟨a, rfl⟩ | ⟨_, rfl⟩
    · exact .openLine l a
    · exact .waits _ (by simp) (by simp) (by simp) (by simp) (by simp) (by simp) (by simp) (by simp)
  | configure hh c =>
    simp only [exec, execConfigure, State.configureRefusal] at h
    split at h
    · cases h
    · rename_i hr
      split at hr
      · cases hr
      · split at hr
        · cases hr
        · split at hr
          · rename_i hR hc
            rcases when_next h with ⟨a, rfl⟩ | ⟨_, rfl⟩
            · exact .configure hh c (by omega) hc a
            · exact .waits _ (by simp) (by simp) (by simp) (by simp) (by simp) (by simp) (by simp) (by simp)
          · cases hr
  | writeImm hh b =>
    simp only [exec, execWriteImm, writeImmRefusal] at h
    split at h
    · cases h
    · rename_i hr
      split at hr
      · rename_i hm
        subst hm
        rcases when_next h with ⟨a, rfl⟩ | ⟨_, rfl⟩
        · exact .writeImm b a
        · exact .waits _ (by simp) (by simp) (by simp) (by simp) (by simp) (by simp) (by simp) (by simp)
      · cases hr
  | writeClk hh bits =>
    simp only [exec, execWriteClk, State.writeClkRefusal] at h
    split at h
    · cases h
    · rename_i hr
      split at hr
      · cases hr
      · rename_i hm
        split at hr
        · cases hr
        · split at hr
          · rename_i hR hl
            obtain rfl : hh = .dataOut := by simpa using hm
            rcases when_next h with ⟨a, rfl⟩ | ⟨_, rfl⟩
            · exact .writeClk bits (by omega) hl a
            · exact .waits _ (by simp) (by simp) (by simp) (by simp) (by simp) (by simp) (by simp) (by simp)
          · cases hr
  | readClk hh n =>
    simp only [exec, execReadClk, State.readClkRefusal] at h
    split at h
    · cases h
    · rename_i hr
      split at hr
      · cases hr
      · rename_i hm
        split at hr
        · cases hr
        · split at hr
          · rename_i hR hl
            obtain rfl : hh = .dataIn := by simpa using hm
            subst hl
            have hR : 1 ≤ s.params.R := by omega
            rcases State.readClk_cases s.begin with ⟨hc, e⟩ | ⟨_, _, e⟩ | ⟨hn, he, ha, e⟩ <;> rw [e] at h
            · injection h with h
              exact h ▸ .readIssue hR hc
            · injection h with h
              exact h ▸ .waits _ (by simp) (by simp) (by simp) (by simp) (by simp) (by simp) (by simp) (by simp)
            · obtain ⟨q, hq, rfl⟩ := State.readClkComplete_next h
              exact .readComplete q hR hn he ha hq
          · cases hr
  | stopClk hh =>
    simp only [exec, execStopClk, stopClkRefusal] at h
    split at h
    · cases h
    · rename_i hr
      split at hr
      · cases hr
      · rename_i hm
        rcases when_next h with ⟨a, rfl⟩ | ⟨_, rfl⟩
        · exact .stopClk hh hm a
        · exact .waits _ (by simp) (by simp) (by simp) (by simp) (by simp) (by simp) (by simp) (by simp)
  | sampleEdge =>
    rcases State.sampleEdge_next (show s.begin.sampleEdge = .next s' from h) with
      ⟨_, rfl⟩ | ⟨hr, hR, hk, hl, d, hd, rfl⟩
    · exact .waits _ (by simp) (by simp) (by simp) (by simp) (by simp) (by simp) (by simp) (by simp)
    · exact .edge d hr hR hk hl hd
  | reset => cases h; exact .reset
  | reservedE => cases h
  | reservedF => cases h
  | stIdle =>
    cases (State.fsmAction_next h).2
    rcases State.idle_cases s.begin with ⟨a, e⟩ | ⟨a, b, e⟩ | ⟨a, b, e⟩ <;> rw [e]
    · exact .idleExit a
    · exact .idleCapture a b
    · exact .idleStay a b
  | stMarkerAsserted =>
    rcases when_next (State.fsmAction_next h).2 with ⟨a, rfl⟩ | ⟨a, rfl⟩
    · exact .assert a
    · exact .waits _ (by simp) (by simp) (by simp) (by simp) (by simp) (fun _ => a) (by simp) (by simp)
  | stXfer => exact absurd rfl hx
  | stMarkerDeasserted =>
    rcases when_next (State.fsmAction_next h).2 with ⟨a, rfl⟩ | ⟨a, rfl⟩
    · exact .deassert a
    · exact .waits _ (by simp) (by simp) (by simp) (by simp) (by simp) (fun _ => a) (by simp) (by simp)
  | stVerified =>
    obtain ⟨v, q, t0, a, b, c, d, e, rfl⟩ := State.verified_next (State.fsmAction_next h).2
    exact .verify v q t0 a b c d e
  | stExited =>
    cases (State.fsmAction_next h).2
    exact .waits _ (by simp) (by simp) (by simp) (by simp) (by simp) (by simp) (by simp) (by simp)
  | stReserved6 => cases h
  | stReserved7 => cases h
  | xsArm =>
    obtain ⟨v, hv, hR, h⟩ := State.xferArm_next (State.fsmAction_next h).2
    rcases State.whenCompletes_cases s.begin opWriteClk (fun t => t.armWrite v) with ⟨a, b⟩ | ⟨a, b⟩ <;>
      rw [b] at h <;> subst h
    · exact .arm v hv hR a
    · exact .waits _ (by simp) (by simp) (by simp) (by simp) (by simp) (by simp) (fun _ => a) (by simp)
  | xsStart =>
    obtain ⟨hR, rfl⟩ := State.xferStart_next (State.fsmAction_next h).2
    exact .start hR
  | xsWait =>
    rcases State.xferWait_next (State.fsmAction_next h).2 with ⟨a, rfl⟩ | ⟨a, b, hR, q, hq, rfl⟩
    · exact .waits _ (by simp) (by simp) (by simp) (by simp) (fun _ => a) (by simp) (by simp) (by simp)
    · exact .complete q a b hR hq
  | xsStopW =>
    rcases when_next (State.fsmAction_next h).2 with ⟨a, rfl⟩ | ⟨a, rfl⟩
    · exact .stopWrite a
    · exact .waits _ (by simp) (by simp) (by simp) (by simp) (by simp) (by simp) (by simp) (fun _ => a)
  | xsStopR =>
    rcases when_next (State.fsmAction_next h).2 with ⟨a, rfl⟩ | ⟨a, rfl⟩
    · exact .stopRead a
    · exact .waits _ (by simp) (by simp) (by simp) (by simp) (by simp) (by simp) (by simp) (fun _ => a)
  | xsReserved5 => cases h
  | xsReserved6 => cases h
  | xsReserved7 => cases h

/-- An action of the FSM answers a next state only while `st` and `xs` hold legal codes (R75, R95). -/
theorem exec_fsm_codesLegal {s s' : State} (c : Code3) (h : exec (decodeState c) s = .next s') :
    s.codesLegal = true := by
  have hc : ∀ c : Code3, c = 0 ∨ c = 1 ∨ c = 2 ∨ c = 3 ∨ c = 4 ∨ c = 5 ∨ c = 6 ∨ c = 7 := by decide
  rcases hc c with rfl | rfl | rfl | rfl | rfl | rfl | rfl | rfl
  · exact (State.fsmAction_next h).1
  · exact (State.fsmAction_next h).1
  · exact (State.fsmAction_next h).1
  · exact (State.fsmAction_next h).1
  · exact (State.fsmAction_next h).1
  · exact (State.fsmAction_next h).1
  · cases h
  · cases h

/-- Everything an instruction can do when it answers a next state. -/
theorem exec_next {s s' : State} {i : Instr} (h : exec i s = .next s') : NextForm s (s.actionRow i) s' :=
  exec_next_of_ne (s.actionRow_ne_stXfer i) (by rwa [exec_actionRow])

end Sys2Proof.Machine
end

