-- ==== Sys2Proof/Laws/Step.lean ====
section
/-!
SUPPORT. What one step of the machine can be: which instruction it fetches, and that it runs it.
-/

namespace Sys2Proof.Machine

/-- A step that answers a next state ran a fetched instruction, or a turn of an agent with no step. -/
theorem step_next {s s' : State} (h : step s = .next s') :
    (∃ i, s.fetched = .instr i ∧ exec i s.takeFetch = .next s') ∨
      (s.fetched = .idle ∧ s' = s.takeFetch.begin) := by
  unfold step at h
  split at h
  · rename_i i hi
    exact .inl ⟨i, hi, h⟩
  · rename_i hi
    injection h with h
    exact .inr ⟨hi, h.symm⟩
  · cases h

/-- Illegal parameters stop every step (R72). -/
theorem step_badRepeat {s : State} (h : s.params.R = 0) : step s = .refused .badRepeatFactor := by
  simp [step, State.fetched, Params.wf, h]

/-- With legal parameters the machine fetches what happens next. -/
theorem State.fetched_of {s : State} (h : 1 ≤ s.params.R) : s.fetched = s.fetchInstr s.nextFetch := by
  simp [State.fetched, Params.wf, h]

/-- Something is fetched only with legal parameters. -/
theorem State.fetched_instr {s : State} {i : Instr} (h : s.fetched = .instr i) :
    1 ≤ s.params.R ∧ s.fetchInstr s.nextFetch = .instr i := by
  unfold State.fetched at h
  split at h
  · exact ⟨Params.wf_eq_true.1 ‹_›, h⟩
  · cases h

/-- The sixteen operation ids (R76). -/
theorem opId_cases (o : OpId) :
    o = 0x0#4 ∨ o = 0x1#4 ∨ o = 0x2#4 ∨ o = 0x3#4 ∨ o = 0x4#4 ∨ o = 0x5#4 ∨ o = 0x6#4 ∨ o = 0x7#4 ∨
      o = 0x8#4 ∨ o = 0x9#4 ∨ o = 0xA#4 ∨ o = 0xB#4 ∨ o = 0xC#4 ∨ o = 0xD#4 ∨ o = 0xE#4 ∨ o = 0xF#4 := by
  revert o
  decide

/-- An operation word decodes to a row of the op space, never to a code of `st` or `xs`. -/
theorem decodeOp_ok_op {w : OpWord} {i : Instr} (h : decodeOp w = .ok i) : ∃ u, encodeCode i = .op u := by
  obtain ⟨o, p⟩ := w
  rcases opId_cases o with rfl | rfl | rfl | rfl | rfl | rfl | rfl | rfl | rfl | rfl | rfl | rfl | rfl |
    rfl | rfl | rfl <;> cases p <;> cases h <;> exact ⟨_, rfl⟩

/-- An instruction of a stimulus word is a PRODUCER action or a reset (R78). -/
theorem decodeStimulus_ok {w : StimulusWord} {i : Instr} (h : decodeStimulus w = .ok i) :
    (∃ v, i = .cellSet v) ∨ i = .stopReq ∨ i = .reset := by
  unfold decodeStimulus at h
  split at h
  · injection h with h
    exact .inl ⟨_, h.symm⟩
  · split at h
    · injection h with h
      exact .inr (.inl h.symm)
    · cases h
  · split at h
    · injection h with h
      exact .inr (.inr h.symm)
    · cases h
  · cases h

/-- The instructions the block's own agents run: a PRODUCER action, a reset, a call of the boot sequence,
the FSM's state once released, a sample edge. -/
theorem State.turnInstr_cases {s : State} {t : Turn} {i : Instr} (h : s.turnInstr t = .instr i) :
    (∃ v, i = .cellSet v) ∨ i = .stopReq ∨ i = .reset ∨ s.bootCall = some i ∨
      (s.boot = .released ∧ i = decodeState s.st) ∨ i = .sampleEdge := by
  cases t with
  | producerSet v =>
    simp only [State.turnInstr, Fetched.instr.injEq] at h
    exact .inl ⟨v, h.symm⟩
  | producerStop =>
    simp only [State.turnInstr, Fetched.instr.injEq] at h
    exact .inr (.inl h.symm)
  | reset =>
    simp only [State.turnInstr, Fetched.instr.injEq] at h
    exact .inr (.inr (.inl h.symm))
  | boot =>
    simp only [State.turnInstr] at h
    split at h
    · rename_i j hj
      injection h with h
      exact .inr (.inr (.inr (.inl (h ▸ hj))))
    · cases h
  | fsm =>
    simp only [State.turnInstr, decodeCode, Fetched.ofDecode] at h
    split at h
    · rename_i hb
      injection h with h
      exact .inr (.inr (.inr (.inr (.inl ⟨hb, h.symm⟩))))
    · cases h
  | sampler =>
    simp only [State.turnInstr, Fetched.instr.injEq] at h
    exact .inr (.inr (.inr (.inr (.inr h.symm))))

/-- The same for a whole fetch, when the queue holds no bare operation word. -/
theorem State.fetched_cases {s : State} {i : Instr} (hb : s.blockRun) (h : s.fetched = .instr i) :
    (∃ v, i = .cellSet v) ∨ i = .stopReq ∨ i = .reset ∨ s.bootCall = some i ∨
      (s.boot = .released ∧ i = decodeState s.st) ∨ i = .sampleEdge := by
  replace h := (State.fetched_instr h).2
  unfold State.fetchInstr at h
  split at h
  · rename_i w _
    cases hd : decodeStimulus w with
    | error e => simp [hd, Fetched.ofDecode] at h
    | ok j =>
      simp only [hd, Fetched.ofDecode, Fetched.instr.injEq] at h
      subst h
      rcases decodeStimulus_ok hd with hv | h | h
      · exact .inl hv
      · exact .inr (.inl h)
      · exact .inr (.inr (.inl h))
  · rename_i w hw
    unfold State.nextFetch at hw
    split at hw
    · cases hw
    · rename_i f rest hq
      exact absurd (by simp [hq, hw]) (hb w)
  · exact State.turnInstr_cases h

/-- A call of the boot sequence opens a line or configures a clocked channel as R34 allows (R152). -/
theorem State.bootCall_cases {s : State} {i : Instr} (h : s.bootCall = some i) :
    (∃ l, i = .openLine l ∧ s.boot = openPhase l) ∨
      (∃ l c, i = .configure l c ∧ l ≠ .marker ∧ s.params.legalCfg l = some c ∧
        s.boot = configurePhase l) := by
  unfold State.bootCall at h
  split at h <;> simp only [Option.some.injEq, reduceCtorEq] at h <;> subst h <;> rename_i hb
  · exact .inl ⟨.marker, rfl, hb⟩
  · exact .inl ⟨.dataOut, rfl, hb⟩
  · exact .inl ⟨.dataIn, rfl, hb⟩
  · exact .inr ⟨.dataOut, _, rfl, by decide, rfl, hb⟩
  · exact .inr ⟨.dataIn, _, rfl, by decide, rfl, hb⟩

/-- Taking the head of the queue leaves a run of the block's own agents one. -/
theorem State.blockRun_takeFetch {s : State} (h : s.blockRun) : s.takeFetch.blockRun := by
  intro w hw
  exact h w (List.mem_of_mem_tail hw)

end Sys2Proof.Machine
end

