-- ==== Sys2Proof/Laws/Boot.lean ====
section
/-!
SUPPORT. What an instruction and a step can do to the boot sequence, the handles and the channels'
configurations.
-/

namespace Sys2Proof.Machine

/-- Boot, the handles and the configurations are as they were. -/
def State.sameBoot (s t : State) : Prop :=
  t.boot = s.boot ∧ t.hMarker = s.hMarker ∧ t.hDout = s.hDout ∧ t.hDin = s.hDin ∧ t.wCfg = s.wCfg ∧
    t.rCfg = s.rCfg

/-- Only RESET, OPEN_LINE and CONFIGURE write boot's registers. -/
theorem NextForm.boot {s t : State} {i : Instr} (h : NextForm s i t) :
    s.sameBoot t ∨ i = .reset ∨ (∃ l, i = .openLine l ∧ t = s.begin.openLine l) ∨
      ∃ l c, i = .configure l c ∧ s.params.legalCfg l = some c ∧ t = s.begin.configure l c := by
  cases h
  case reset => exact .inr (.inl rfl)
  case openLine l _ => exact .inr (.inr (.inl ⟨l, rfl, rfl⟩))
  case configure l c _ hc _ => exact .inr (.inr (.inr ⟨l, c, rfl, hc, rfl⟩))
  case assert => rw [State.assertMarker_eq]; exact .inl ⟨rfl, rfl, rfl, rfl, rfl, rfl⟩
  case deassert => rw [State.deassertMarker_eq]; exact .inl ⟨rfl, rfl, rfl, rfl, rfl, rfl⟩
  case arm => rw [State.armWrite_eq]; exact .inl ⟨rfl, rfl, rfl, rfl, rfl, rfl⟩
  case stopWrite => rw [State.stopWriteChannel_eq]; exact .inl ⟨rfl, rfl, rfl, rfl, rfl, rfl⟩
  case stopRead => rw [State.stopReadChannel_eq]; exact .inl ⟨rfl, rfl, rfl, rfl, rfl, rfl⟩
  case verify => rw [State.verify_eq]; exact .inl ⟨rfl, rfl, rfl, rfl, rfl, rfl⟩
  case stopClk =>
    simp only [State.stopClk, State.stopFlags_eq]
    exact .inl ⟨rfl, rfl, rfl, rfl, rfl, rfl⟩
  all_goals exact .inl ⟨rfl, rfl, rfl, rfl, rfl, rfl⟩

/-- The same of every instruction: XFER runs a sub-state, and none opens or configures. -/
theorem exec_boot {s t : State} {i : Instr} (h : exec i s = .next t) :
    s.sameBoot t ∨ i = .reset ∨ (∃ l, i = .openLine l ∧ t = s.begin.openLine l) ∨
      ∃ l c, i = .configure l c ∧ s.params.legalCfg l = some c ∧ t = s.begin.configure l c := by
  have hn := (exec_next h).boot
  have hd : ∀ c : Code3, decodeSub c = .xsArm ∨ decodeSub c = .xsStart ∨ decodeSub c = .xsWait ∨
      decodeSub c = .xsStopW ∨ decodeSub c = .xsStopR ∨ decodeSub c = .xsReserved5 ∨
      decodeSub c = .xsReserved6 ∨ decodeSub c = .xsReserved7 := by decide
  unfold State.actionRow at hn
  split at hn
  · rcases hd s.xs with e | e | e | e | e | e | e | e <;>
      exact .inl (by simpa [e] using hn)
  · exact hn

end Sys2Proof.Machine
end

