-- ==== Sys2Proof/Laws/PerInstr.lean ====
section
/-!
SUPPORT. For every row of spec/opcode_table.json: the code of the row is the one the table gives it
(R73, R74, R76), whatever the operands.
-/

namespace Sys2Proof.Laws.RowCode

/-- The format and the number spec/opcode_table.json gives the row (its fields format and match). -/
def tableRow : Instr → String × Nat
  | .encode _ => ("op", 0x0)
  | .decode _ => ("op", 0x1)
  | .frameCheck _ => ("op", 0x2)
  | .cellSet _ => ("op", 0x3)
  | .cellGet => ("op", 0x4)
  | .stopReq => ("op", 0x5)
  | .openLine _ => ("op", 0x6)
  | .configure _ _ => ("op", 0x7)
  | .writeImm _ _ => ("op", 0x8)
  | .writeClk _ _ => ("op", 0x9)
  | .readClk _ _ => ("op", 0xA)
  | .stopClk _ => ("op", 0xB)
  | .sampleEdge => ("op", 0xC)
  | .reset => ("op", 0xD)
  | .reservedE => ("op", 0xE)
  | .reservedF => ("op", 0xF)
  | .stIdle => ("fsm_state", 0x0)
  | .stMarkerAsserted => ("fsm_state", 0x1)
  | .stXfer => ("fsm_state", 0x2)
  | .stMarkerDeasserted => ("fsm_state", 0x3)
  | .stVerified => ("fsm_state", 0x4)
  | .stExited => ("fsm_state", 0x5)
  | .stReserved6 => ("fsm_state", 0x6)
  | .stReserved7 => ("fsm_state", 0x7)
  | .xsArm => ("xfer_sub", 0x0)
  | .xsStart => ("xfer_sub", 0x1)
  | .xsWait => ("xfer_sub", 0x2)
  | .xsStopW => ("xfer_sub", 0x3)
  | .xsStopR => ("xfer_sub", 0x4)
  | .xsReserved5 => ("xfer_sub", 0x5)
  | .xsReserved6 => ("xfer_sub", 0x6)
  | .xsReserved7 => ("xfer_sub", 0x7)

/-- The format and the number of a code. -/
def codeRow : TableCode → String × Nat
  | .op w => ("op", w.op.toNat)
  | .state c => ("fsm_state", c.toNat)
  | .sub c => ("xfer_sub", c.toNat)

/-- The encoder gives the instruction the table's number in the table's space. -/
def Statement (i : Instr) : Prop := codeRow (encodeCode i) = tableRow i

theorem encode (v : Word) : Statement (.encode v) := rfl
theorem decode (q : Digits) : Statement (.decode q) := rfl
theorem frameCheck (q : Digits) : Statement (.frameCheck q) := rfl
theorem cellSet (v : Word) : Statement (.cellSet v) := rfl
theorem cellGet : Statement (.cellGet) := rfl
theorem stopReq : Statement (.stopReq) := rfl
theorem openLine (l : Line) : Statement (.openLine l) := rfl
theorem configure (h : Line) (c : ClockCfg) : Statement (.configure h c) := rfl
theorem writeImm (h : Line) (b : Bool) : Statement (.writeImm h b) := rfl
theorem writeClk (h : Line) (q : Digits) : Statement (.writeClk h q) := rfl
theorem readClk (h : Line) (n : Nat) : Statement (.readClk h n) := rfl
theorem stopClk (h : Line) : Statement (.stopClk h) := rfl
theorem sampleEdge : Statement (.sampleEdge) := rfl
theorem reset : Statement (.reset) := rfl
theorem reservedE : Statement (.reservedE) := rfl
theorem reservedF : Statement (.reservedF) := rfl
theorem stIdle : Statement (.stIdle) := rfl
theorem stMarkerAsserted : Statement (.stMarkerAsserted) := rfl
theorem stXfer : Statement (.stXfer) := rfl
theorem stMarkerDeasserted : Statement (.stMarkerDeasserted) := rfl
theorem stVerified : Statement (.stVerified) := rfl
theorem stExited : Statement (.stExited) := rfl
theorem stReserved6 : Statement (.stReserved6) := rfl
theorem stReserved7 : Statement (.stReserved7) := rfl
theorem xsArm : Statement (.xsArm) := rfl
theorem xsStart : Statement (.xsStart) := rfl
theorem xsWait : Statement (.xsWait) := rfl
theorem xsStopW : Statement (.xsStopW) := rfl
theorem xsStopR : Statement (.xsStopR) := rfl
theorem xsReserved5 : Statement (.xsReserved5) := rfl
theorem xsReserved6 : Statement (.xsReserved6) := rfl
theorem xsReserved7 : Statement (.xsReserved7) := rfl

end Sys2Proof.Laws.RowCode
end

