-- ==== Sys2Proof/Tests/Slice0.lean ====
section
/-!
SUPPORT. Tests on fixed values: the checks of WellFormed, the decoding of every row, one step of every
instruction with the values of spec/95_test_vectors.md (V1 to V126), and for every obligation with
hypotheses a state and operands that meet them.
-/

namespace Sys2Proof.Tests

open Sys2Proof.Machine

/-! Helpers. -/

/-- The parameters with a given repeat factor. -/
def atR (r : Nat) : Params := { Params.reset with R := r }

/-- A field of the next state, if there is one. -/
def after {α : Type} (r : Result) (f : State → α) : Option α :=
  match r with
  | .next s => some (f s)
  | _ => none

/-- After reset, with `DRIVER OK` and `LOOPBACK IDEAL` (R79). -/
def fresh : State := State.idealReset Params.reset false

/-- After a boot in which every call succeeded (R152, R153). -/
def ready : State :=
  { fresh with
    boot := .released
    hMarker := some ⟨0, 1⟩
    hDout := some ⟨1, 2⟩
    hDin := some ⟨2, 3⟩
    wCfg := Params.reset.legalCfg .dataOut
    rCfg := Params.reset.legalCfg .dataIn }

/-- `ready` with the next call of one kind failing with status 5 (R79 `DRIVER FAIL`). -/
def failing (op : OpId) : State := { ready with env := { ready.env with fails := [(op, 5)] } }

/-- A transfer of 5 in flight, one edge taken; the SAMPLER's turn is next. -/
def running : State :=
  { ready with
    queue := [.turn .sampler]
    st := 0b010#3
    xs := 0b010#3
    marker := true
    lastObs := 5
    cell := 5
    cap := some 5
    tStart := some 0
    tx := some (encoderSeq 5 1)
    rx := some true :: List.replicate 68 none
    k := 1
    wrArmed := true
    engRun := true
    busy := true
    rdCall := some ⟨0, true⟩
    dout := false }

/-- `running` with every edge taken: WAIT can complete. -/
def sampled : State :=
  { running with
    queue := [.turn .fsm]
    rx := (true :: encoderSeq 5 1).map some
    k := 69
    engRun := false }

/-- The transfer of 5, ready to be verified. -/
def verifying : State :=
  { sampled with
    st := 0b100#3
    xs := 0b100#3
    marker := false
    wrArmed := false
    busy := false
    rdCall := none }

/-- An FSM turn in EXITED. -/
def exited : State := { ready with st := 0b101#3, stop := true, queue := [.turn .fsm] }

/-! The checks of WellFormed each refuse an ill-formed term. -/

theorem test_wf_params : Params.reset.wf = true := by decide
theorem test_ill_params_repeat : (atR 0).wf = false := by decide
theorem test_rate_positive : 0 < (Config.hertz Params.reset.sampleRate).1 := (Config.hertz _).2
theorem test_poll_positive : 0 < (Config.pollTime Params.reset.pollInterval).1 := (Config.pollTime _).2
theorem test_ill_encode : (Instr.encode 5).wf (atR 0) = false := by decide
theorem test_ill_decode_repeat : (Instr.decode [false]).wf (atR 0) = false := by decide
theorem test_ill_decode_length : (Instr.decode (List.replicate 68 false)).wf (atR 1) = false := by decide
theorem test_ill_frameCheck_length : (Instr.frameCheck (List.replicate 70 false)).wf (atR 1) = false := by
  decide
theorem test_ill_configure_count :
    (Instr.configure .dataIn ⟨0, .rising, 68, .none⟩).wf (atR 1) = false := by decide
theorem test_ill_configure_rate :
    (Instr.configure .dataIn ⟨1, .rising, 69, .none⟩).wf (atR 1) = false := by decide
theorem test_ill_configure_marker :
    (Instr.configure .marker ⟨0, .rising, 69, .none⟩).wf (atR 1) = false := by decide
theorem test_ill_writeImm : (Instr.writeImm .dataOut true).wf (atR 1) = false := by decide
theorem test_ill_writeClk_handle :
    (Instr.writeClk .dataIn (List.replicate 68 false)).wf (atR 1) = false := by decide
theorem test_ill_writeClk_length :
    (Instr.writeClk .dataOut (List.replicate 69 false)).wf (atR 1) = false := by decide
theorem test_ill_readClk_handle : (Instr.readClk .dataOut 69).wf (atR 1) = false := by decide
theorem test_ill_readClk_count : (Instr.readClk .dataIn 68).wf (atR 1) = false := by decide
theorem test_ill_stopClk : (Instr.stopClk .marker).wf (atR 1) = false := by decide
theorem test_ill_reserved :
    (Instr.reservedE.wf (atR 1) || Instr.reservedF.wf (atR 1) || Instr.stReserved6.wf (atR 1) ||
      Instr.stReserved7.wf (atR 1) || Instr.xsReserved5.wf (atR 1) || Instr.xsReserved6.wf (atR 1) ||
      Instr.xsReserved7.wf (atR 1)) = false := by decide
theorem test_wf_configure :
    (Instr.configure .dataIn ⟨0, .rising, 69, .none⟩).wf (atR 1) = true := by decide

/-! Decoding: the codes of R73, R74 and R76 written out, and the stimulus words of R78. -/

theorem test_decode_encode : decodeOp ⟨0b0000#4, .value 5⟩ = .ok (.encode 5) := by decide
theorem test_decode_decode : decodeOp ⟨0b0001#4, .digits [true]⟩ = .ok (.decode [true]) := by decide
theorem test_decode_frameCheck :
    decodeOp ⟨0b0010#4, .digits [true]⟩ = .ok (.frameCheck [true]) := by decide
theorem test_decode_cellSet : decodeOp ⟨0b0011#4, .value 7⟩ = .ok (.cellSet 7) := by decide
theorem test_decode_cellGet : decodeOp ⟨0b0100#4, .none⟩ = .ok .cellGet := by decide
theorem test_decode_stopReq : decodeOp ⟨0b0101#4, .none⟩ = .ok .stopReq := by decide
theorem test_decode_openLine : decodeOp ⟨0b0110#4, .line .dataIn⟩ = .ok (.openLine .dataIn) := by decide
theorem test_decode_configure :
    decodeOp ⟨0b0111#4, .lineCfg .dataIn ⟨0, .rising, 69, .none⟩⟩ =
      .ok (.configure .dataIn ⟨0, .rising, 69, .none⟩) := by decide
theorem test_decode_writeImm :
    decodeOp ⟨0b1000#4, .lineBit .marker true⟩ = .ok (.writeImm .marker true) := by decide
theorem test_decode_writeClk :
    decodeOp ⟨0b1001#4, .lineDigits .dataOut [false]⟩ = .ok (.writeClk .dataOut [false]) := by decide
theorem test_decode_readClk :
    decodeOp ⟨0b1010#4, .lineCount .dataIn 69⟩ = .ok (.readClk .dataIn 69) := by decide
theorem test_decode_stopClk : decodeOp ⟨0b1011#4, .line .dataOut⟩ = .ok (.stopClk .dataOut) := by decide
theorem test_decode_sampleEdge : decodeOp ⟨0b1100#4, .none⟩ = .ok .sampleEdge := by decide
theorem test_decode_reset : decodeOp ⟨0b1101#4, .none⟩ = .ok .reset := by decide
theorem test_decode_reservedE : decodeOp ⟨0b1110#4, .none⟩ = .ok .reservedE := by decide
theorem test_decode_reservedF : decodeOp ⟨0b1111#4, .none⟩ = .ok .reservedF := by decide
theorem test_decode_operand_form : decodeOp ⟨0b0100#4, .value 5⟩ = .error (.operandForm 0b0100#4) := by decide
theorem test_decode_stIdle : decodeState 0b000#3 = .stIdle := by decide
theorem test_decode_stMarkerAsserted : decodeState 0b001#3 = .stMarkerAsserted := by decide
theorem test_decode_stXfer : decodeState 0b010#3 = .stXfer := by decide
theorem test_decode_stMarkerDeasserted : decodeState 0b011#3 = .stMarkerDeasserted := by decide
theorem test_decode_stVerified : decodeState 0b100#3 = .stVerified := by decide
theorem test_decode_stExited : decodeState 0b101#3 = .stExited := by decide
theorem test_decode_stReserved6 : decodeState 0b110#3 = .stReserved6 := by decide
theorem test_decode_stReserved7 : decodeState 0b111#3 = .stReserved7 := by decide
theorem test_decode_xsArm : decodeSub 0b000#3 = .xsArm := by decide
theorem test_decode_xsStart : decodeSub 0b001#3 = .xsStart := by decide
theorem test_decode_xsWait : decodeSub 0b010#3 = .xsWait := by decide
theorem test_decode_xsStopW : decodeSub 0b011#3 = .xsStopW := by decide
theorem test_decode_xsStopR : decodeSub 0b100#3 = .xsStopR := by decide
theorem test_decode_xsReserved5 : decodeSub 0b101#3 = .xsReserved5 := by decide
theorem test_decode_xsReserved6 : decodeSub 0b110#3 = .xsReserved6 := by decide
theorem test_decode_xsReserved7 : decodeSub 0b111#3 = .xsReserved7 := by decide
theorem test_stimulus_cellSet : decodeStimulus 0x30000000000000005#68 = .ok (.cellSet 5) := by decide
theorem test_stimulus_stopReq : decodeStimulus 0x50000000000000000#68 = .ok .stopReq := by decide
theorem test_stimulus_reset : decodeStimulus 0xD0000000000000000#68 = .ok .reset := by decide
theorem test_stimulus_other : decodeStimulus 0xE0000000000000000#68 = .error (.illegalStimulus 0xE#4) := by
  decide
theorem test_stimulus_operand :
    decodeStimulus 0x50000000000000001#68 = .error (.stimulusOperand 0x5#4) := by decide
theorem test_encode_cellSet : encodeStimulus (.cellSet 5) = some 0x30000000000000005#68 := by decide
theorem test_table_word_cellGet : decodeTableWord 8 4 = some .cellGet := by decide
theorem test_table_word_steps :
    after (step (State.reset.withFetchWord 8 5)) (·.stop) = some true := by decide

/-! One step of each instruction. -/

/-- V3, V7: the frame words of 5 and of 0123456789ABCDEF. -/
theorem test_encode_frame :
    encoderFrame 5 = 0x40000000000000016#68 ∧
      encoderFrame 0x0123456789ABCDEF = 0x4048D159E26AF37BE#68 := by decide

/-- V11: the last 14 digits of ENCODE(5, 2). -/
theorem test_encode_seq :
    (encoderSeq 5 2).drop 122 =
      [false, false, false, false, true, true, false, false, true, true, true, true, false, false] := by decide

set_option maxRecDepth 4000 in
/-- V20. -/
theorem test_decode_value :
    after (exec (.decode (false :: encoderSeq 5 1)) fresh) (·.ret) = some (.value 5) := by decide

set_option maxRecDepth 4000 in
/-- V44: with the leading sample missing, ENCODE(5, 1) reads as 64'hB. -/
theorem test_decode_shifted :
    after (exec (.decode (encoderSeq 5 1 ++ [false])) fresh) (·.ret) = some (.value 0xB) := by decide

set_option maxRecDepth 4000 in
/-- V50 and V40. -/
theorem test_frameCheck :
    after (exec (.frameCheck (true :: encoderSeq 5 1)) fresh) (·.ret) = some (.bit true) ∧
      after (exec (.frameCheck (List.replicate 69 false)) fresh) (·.ret) = some (.bit false) := by decide

/-- R114's example. -/
theorem test_cellSet : after (exec (.cellSet 9) { fresh with cell := 7 }) (·.cell) = some 9 := by decide

/-- R115's example: the cell holds the last write. -/
theorem test_cellGet : after (exec .cellGet { fresh with cell := 4 }) (·.ret) = some (.value 4) := by decide

theorem test_stopReq : after (exec .stopReq fresh) (·.stop) = some true := by decide

/-- R123's example. -/
theorem test_openLine : after (exec (.openLine .marker) fresh) (·.hMarker) = some (some ⟨0, 1⟩) := by decide

/-- R123: a failed call leaves the handle unwritten and raises DriverError(OPEN_LINE). -/
theorem test_openLine_fails :
    after (exec (.openLine .marker) { failing 0x6#4 with hMarker := none }) (fun s => (s.hMarker, s.err)) =
      some (none, some (.driverCallFailed 0x6#4 5)) := by decide

/-- R124's example: CONFIGURE(h_din, SAMPLE_RATE_HZ, CLOCK_EDGE, 69, NONE) for R = 1. -/
theorem test_configure :
    after (exec (.configure .dataIn ⟨0, .rising, 69, .none⟩) ready) (fun s => (s.ret, s.rCfg)) =
      some (.status 0, some ⟨0, .rising, 69, .none⟩) := by decide

/-- R125's example. -/
theorem test_writeImm : after (exec (.writeImm .marker true) ready) (·.marker) = some true := by decide

/-- R126's example: armed, `dout` unchanged. -/
theorem test_writeClk :
    after (exec (.writeClk .dataOut (encoderSeq 5 1)) { ready with dout := true })
      (fun s => (s.wrArmed, s.dout)) = some (true, true) := by decide

/-- R99's example: `k` = 0 and the engine runs. -/
theorem test_readClk :
    after (exec (.readClk .dataIn 69) { ready with k := 69 }) (fun s => (s.k, s.engRun)) = some (0, true) := by
  decide

/-- R128's example. -/
theorem test_stopClk :
    after (exec (.stopClk .dataOut) { ready with wrArmed := true, wrDirty := true })
      (fun s => (s.wrArmed, s.wrDirty)) = some (false, false) := by decide

/-- R128: a failed stop leaves the write armed and the channel dirty. -/
theorem test_stopClk_fails :
    after (exec (.stopClk .dataOut) { failing 0xB#4 with wrArmed := true })
      (fun s => (s.wrArmed, s.wrDirty)) = some (true, true) := by decide

/-- R129's example: edge 1 samples 0, then drives 1. -/
theorem test_sampleEdge :
    after (exec .sampleEdge running) (fun s => (s.rx[1]?, s.dout, s.k, s.engRun)) =
      some (some (some false), true, 2, true) := by decide

/-- R129's example: edge 68 samples and ends the transfer, driving nothing. -/
theorem test_sampleEdge_last :
    after (exec .sampleEdge { running with k := 68 }) (fun s => (s.rx[68]?, s.dout, s.k, s.engRun)) =
      some (some (some false), false, 69, false) := by decide

/-- R151's example. -/
theorem test_reset :
    after (exec .reset running) (fun s => (s.st, s.lastObs, s.cell, s.stop, s.marker)) =
      some (0, 0, 0, false, false) := by decide

theorem test_reserved_ids :
    exec .reservedE fresh = .refused (.reservedOperation 0xE#4) ∧
      exec .reservedF fresh = .refused (.reservedOperation 0xF#4) := ⟨rfl, rfl⟩

/-- R96's example. -/
theorem test_stIdle :
    after (exec .stIdle { ready with cell := 5 }) (fun s => (s.cap, s.lastObs, s.st)) =
      some (some 5, 5, 1) := by decide

/-- R143: a stop wins over a change. -/
theorem test_stIdle_stop :
    after (exec .stIdle { ready with cell := 5, stop := true }) (fun s => (s.cap, s.st)) =
      some (none, 5) := by decide

/-- R97's example. -/
theorem test_stMarkerAsserted :
    after (exec .stMarkerAsserted { ready with st := 1, xs := 4 }) (fun s => (s.marker, s.st, s.xs)) =
      some (true, 2, 0) := by decide

/-- R97: a failing call is pulsed, `cyc_err` is set and the FSM goes on. -/
theorem test_stMarkerAsserted_fails :
    after (exec .stMarkerAsserted { failing 0x8#4 with st := 1 }) (fun s => (s.err, s.cycErr, s.st)) =
      some (some (.driverCallFailed 0x8#4 5), true, 2) := by decide

/-- R93: XFER runs the sub-state in `xs`, here STOP_R. -/
theorem test_stXfer :
    after (exec .stXfer { sampled with xs := 4 }) (fun s => (s.st, s.xs)) = some (3, 4) := by decide

/-- R103's example. -/
theorem test_stMarkerDeasserted :
    after (exec .stMarkerDeasserted { sampled with st := 3 }) (fun s => (s.marker, s.st)) =
      some (false, 4) := by decide

set_option maxRecDepth 4000 in
/-- R104's example: sent 5, received 5, matched, frame_ok, no error. -/
theorem test_stVerified :
    after (exec .stVerified verifying)
      (fun s => (s.record.map (fun r => (r.sent, r.received, r.matched, r.frameOk)), s.err, s.st)) =
      some (some (5, 5, true, true), none, 0) := by decide

set_option maxRecDepth 4000 in
/-- R138: another value read back is a mismatch, and the FSM goes to IDLE. -/
theorem test_stVerified_mismatch :
    after (exec .stVerified { verifying with cap := some 7 }) (fun s => (s.err, s.matched, s.st)) =
      some (some (.roundtripMismatch 7 5), false, 0) := by decide

theorem test_stExited : after (exec .stExited { ready with st := 5 }) (·.st) = some 5 := by decide

/-- R98's example: ENCODE(5, 1) is armed. -/
theorem test_xsArm :
    after (exec .xsArm { running with xs := 0, wrArmed := false, tx := none }) (fun s => (s.tx, s.wrArmed, s.xs)) =
      some (some (encoderSeq 5 1), true, 1) := by decide

/-- R99's example. -/
theorem test_xsStart :
    after (exec .xsStart { running with xs := 1, engRun := false, busy := false, k := 69, rdCall := none })
      (fun s => (s.engRun, s.k, s.busy, s.xs)) = some (true, 0, true, 2) := by decide

/-- R100's example. -/
theorem test_xsWait : after (exec .xsWait sampled) (fun s => (s.busy, s.xs)) = some (false, 3) := by decide

/-- R95: WAIT is not enabled while the engine runs. -/
theorem test_xsWait_runs : after (exec .xsWait running) (fun s => (s.busy, s.xs)) = some (true, 2) := by decide

/-- R101's example. -/
theorem test_xsStopW :
    after (exec .xsStopW { sampled with xs := 3 }) (fun s => (s.wrArmed, s.xs)) = some (false, 4) := by decide

/-- R102's example. -/
theorem test_xsStopR : after (exec .xsStopR { sampled with xs := 4 }) (·.st) = some 3 := by decide

/-- R75: a reserved code in `xs` stops the FSM in every state. -/
theorem test_reserved_sub_idle :
    exec .stIdle { ready with xs := 5 } = .fault .reservedState ∧
      ({ exited with xs := 5 } : State).final = false := ⟨rfl, rfl⟩

/-- R21: a read that completes with digits no edge has written faults. -/
theorem test_readClk_unwritten :
    exec (.readClk .dataIn 69) { running with engRun := false } = .fault (.unwritten .rx) := rfl

/-- R79: a PRE given before RESET holds for the next read, and `DRIVER FAIL op 0` is refused. -/
theorem test_directives :
    after ((Directive.pre true).perform 0 fresh) (·.env.pre) = some (some true) ∧
      after (exec .reset (fresh.presetLine true)) (·.env.pre) = some (some true) ∧
      after (exec .xsStart { (ready.presetLine true) with dout := false }) (·.dout) = some true ∧
      fresh.driverNextFails 0x8#4 0 = .refused .badDirective := ⟨rfl, rfl, rfl, rfl⟩

/-- R79: `PRE d` fixes sample 0 of the next transfer, also without LOOPBACK IDEAL. -/
theorem test_preset_sample :
    after (Result.andThen (exec .xsStart { (ready.presetLine true) with
      env := { (ready.presetLine true).env with loopback := false } }) (exec .sampleEdge)) (fun s => s.rx[0]?) = some (some (some true)) := by
  decide

/-- R156: a write armed while the read runs misses its start event, so the next edge keeps `dout`. -/
theorem test_late_write :
    after (Result.andThen (exec (.writeClk .dataOut (List.replicate 68 true)) running) (exec .sampleEdge))
      (fun s => (s.dout, s.wrArmed, s.k)) = some (false, true, 2) := by decide

/-- R121: under DRIVER_COMPLETES the sample clock's edge comes once the gap has run out. -/
theorem test_clock_due :
    after (step { running with queue := [] }) (fun s => (s.k, s.engRun)) = some (2, true) := by decide

theorem test_reserved_codes :
    exec .stReserved6 ready = .fault .reservedState ∧ exec .stReserved7 ready = .fault .reservedState ∧
      exec .xsReserved5 ready = .fault .reservedState ∧ exec .xsReserved6 ready = .fault .reservedState ∧
      exec .xsReserved7 ready = .fault .reservedState := ⟨rfl, rfl, rfl, rfl, rfl⟩

/-! For every obligation with hypotheses, states and operands that meet them; where clauses meet, the
boundary values. -/

theorem witness_StimulusWordsExact :
    stimulusOp 0x40000000000000000#68 ≠ 0x3#4 ∧ stimulusOp 0x40000000000000000#68 ≠ 0x5#4 ∧
      stimulusOp 0x40000000000000000#68 ≠ 0xD#4 := by decide
theorem witness_TableCodesRoundTrip : decodeCode (.state 0b100#3) = .ok .stVerified := by decide
theorem witness_ReservedIdsRefused :
    stimulusOp 0xE0000000000000000#68 = 0xE#4 ∧ stimulusOp 0xFFFFFFFFFFFFFFFFF#68 = 0xF#4 := by decide

/-- The least and the greatest index of each range. -/
theorem witness_FrameWordLayout :
    encoderLogical 5 2 = false ∧ encoderLogical 5 63 = true ∧ encoderLogical 5 65 = true ∧
      (0 < 68 ∧ 67 < 68 ∧ 63 < 64) := by decide

/-- The first and the last digit of each kind of block, for R = 2. -/
theorem witness_EncodedBlocks :
    [0, 1, 2, 3, 4, 129, 130, 131, 132, 133, 134, 135].map (fun j => (encoderSeq 5 2)[j]?) =
      [some false, some false, some true, some true, some false, some false, some true, some true,
        some true, some true, some false, some false] := by decide
theorem witness_EncodeInjective :
    1 ≤ 1 ∧ encoderSeq 5 1 = encoderSeq 5 1 ∧ encoderSeq 4 1 ≠ encoderSeq 5 1 := by decide
theorem witness_EncodeResult : 1 ≤ fresh.params.R ∧ (67 : Nat) < 68 * fresh.params.R := by decide
theorem witness_DecodeRecoversEncoded : 1 ≤ fresh.params.R := by decide
theorem witness_FrameCheckAcceptsEncoded : 1 ≤ ({ fresh with params := atR 3 } : State).params.R := by decide

/-- Also for FrameCheckResult. -/
theorem witness_DecodeResult :
    1 ≤ fresh.params.R ∧ (List.replicate 69 true).length = 68 * fresh.params.R + 1 := by decide
theorem witness_BadFrameStillDecodes :
    1 ≤ fresh.params.R ∧ (List.replicate 69 true).length = 68 * fresh.params.R + 1 ∧
      ¬ ((List.replicate 69 true).getD 1 false = false) := by decide
theorem witness_UnitsRefuseIllegalInput :
    ({ fresh with params := atR 0 } : State).params.R = 0 ∧ 1 ≤ fresh.params.R ∧ Line.dataIn ≠ .marker ∧
      (List.replicate 68 true).length ≠ 68 * fresh.params.R + 1 ∧
      ({ running with params := atR 0 } : State).engRun = true ∧ running.codesLegal = true ∧
      running.cap = some 5 ∧ sampled.engRun = false ∧
      ({ sampled with params := atR 0 } : State).begin.readReturns = true ∧
      ({ verifying with params := atR 0 } : State).params.R = 0 ∧ verifying.codesLegal = true ∧
      verifying.cap = some 5 ∧
      verifying.rx = (true :: encoderSeq 5 1).map some ∧ verifying.tStart = some 0 ∧
      1 ≤ ({ verifying with params := atR 2 } : State).params.R ∧
      (true :: encoderSeq 5 1).length ≠ 68 * ({ verifying with params := atR 2 } : State).params.R + 1 := by
  decide

set_option maxRecDepth 4000 in
/-- The first and the last payload block, its first and its last digit, for R = 2. -/
theorem witness_FirstSamplePolicy :
    1 ≤ 2 ∧ (List.replicate 137 false).length = 68 * 2 + 1 ∧ 2 ≤ 2 ∧ 65 ≤ 65 ∧ 0 < 2 ∧ 1 < 2 ∧ 1 ≤ 1 := by
  decide
theorem witness_SharedCellResults : ∃ t, exec (.cellSet 5) fresh = .next t := ⟨_, rfl⟩

/-- A write that changes the cell, a stop request that changes the flag, a reset that changes both, and a
step with the flag set. -/
theorem witness_SharedWritersOnly :
    after (exec (.cellSet 5) fresh) (·.cell) = some 5 ∧ fresh.cell ≠ 5 ∧ fresh.stop = false ∧
      after (exec .stopReq fresh) (·.stop) = some true ∧
      after (exec .reset { running with stop := true }) (fun s => (s.cell, s.stop)) = some (0, false) ∧
      after (exec .cellGet { fresh with stop := true }) (·.stop) = some true := by decide
theorem witness_ResetResult :
    fresh.st = 0b000#3 ∧ ({ fresh with st := 0b101#3 } : State).st = 0b101#3 ∧ fresh.engRun = false ∧
      fresh.busy = false := by decide
theorem witness_CallStatuses :
    fresh.driverOk ∧ (failing 0x8#4).scripted 0x8#4 = some 5 ∧ (5 : DriverStatus) ≠ 0 ∧
      fresh.driverCompletes ∧ ({ running with queue := [] } : State).driverCompletes ∧
      1 ≤ running.params.R ∧ running.engRun = true ∧ running.edgeGap = 0 ∧
      ({ running with queue := [], edgeGap := 3 } : State).edgeGap = 2 + 1 ∧
      after (exec .sampleEdge { running with edgeGap := 3 }) (·.edgeGap) = some 3 :=
  ⟨⟨rfl, rfl⟩, by decide, by decide, rfl, rfl, by decide, rfl, rfl, rfl, by decide⟩

/-- The clauses on a channel's registers and on the draws: no handle, another count, a good channel, no premise. -/
theorem witness_CallStatuses_channels :
    fresh.handle .marker = none ∧
      ({ ready with rCfg := ready.wCfg } : State).clockCfg .dataIn ≠ ready.params.legalCfg .dataIn ∧
      ready.handle .dataIn = some ⟨2, 3⟩ ∧ ready.clockCfg .dataIn = ready.params.legalCfg .dataIn ∧
      ready.env.driverOk = true ∧ ready.env.fails = [] ∧
      (State.atReset Params.reset false).scripted 0x8#4 = none ∧
      (State.atReset Params.reset false).env.driverOk = false ∧
      (State.atReset Params.reset false).env.driverCompletes = false ∧
      ({ running with rdCall := some ⟨0, false⟩ } : State).rdCall = some ⟨0, false⟩ := by decide

/-- A call that succeeds and one that fails. -/
theorem witness_OpenLineResult :
    fresh.begin.completes 0x6#4 = true ∧ fresh.begin.rawStatus 0x6#4 = 0 ∧
      (failing 0x6#4).begin.completes 0x6#4 = true ∧ (failing 0x6#4).begin.rawStatus 0x6#4 = 5 := by decide
theorem witness_ConfigureResult :
    1 ≤ ready.params.R ∧ ready.params.legalCfg .dataIn = some ⟨0, .rising, 69, .none⟩ ∧
      ready.params.legalCfg .dataOut = some ⟨0, .rising, 68, .startOf .dataIn⟩ ∧
      ready.begin.completes 0x7#4 = true ∧
      ready.params.legalCfg .dataIn ≠ some ⟨0, .rising, 68, .none⟩ ∧ Line.dataIn ≠ Line.marker ∧
      ({ ready with params := atR 0 } : State).params.R = 0 := by decide
theorem witness_WriteImmResult :
    ready.begin.completes 0x8#4 = true ∧ ready.begin.callStatus 0x8#4 (ready.begin.usable .marker) = 0 ∧
      (failing 0x8#4).begin.completes 0x8#4 = true ∧ Line.dataOut ≠ Line.marker := by decide
theorem witness_WriteClkResult :
    1 ≤ ready.params.R ∧ (encoderSeq 5 1).length = 68 * ready.params.R ∧ ready.begin.completes 0x9#4 = true ∧
      ready.begin.callStatus 0x9#4 (ready.begin.usable .dataOut) = 0 ∧ ready.wrDirty = false ∧
      Line.dataIn ≠ Line.dataOut ∧ ([] : Digits).length ≠ 68 * ready.params.R := by decide

/-- Issue; completion of a read that succeeded, that failed and on a dirty channel; a read still running. -/
theorem witness_ReadClkResult :
    1 ≤ ready.params.R ∧ ready.rdCall = none ∧
      (failing 0xA#4).begin.callStatus 0xA#4 ((failing 0xA#4).begin.usable .dataIn) = 5 ∧
      sampled.rdCall = some ⟨0, true⟩ ∧ sampled.engRun = false ∧
      sampled.begin.readReturns = true ∧ sampled.rdDirty = false ∧
      sampled.rx = (true :: encoderSeq 5 1).map some ∧
      ({ sampled with rdCall := some ⟨3, true⟩ } : State).begin.readReturns = true ∧
      ({ sampled with rdDirty := true } : State).begin.readReturns = true ∧
      running.rdCall = some ⟨0, true⟩ ∧ running.engRun = true ∧ Line.dataOut ≠ Line.dataIn ∧
      68 ≠ 68 * ready.params.R + 1 := by decide
theorem witness_StopClkResult :
    ready.begin.completes 0xB#4 = true ∧ ready.begin.stopClkStatus .dataOut = 0 ∧
      ready.begin.stopClkStatus .dataIn = 0 ∧ (failing 0xB#4).begin.completes 0xB#4 = true ∧
      (failing 0xB#4).begin.stopClkStatus .dataIn = 5 := by decide
theorem witness_HungCallWaits :
    ownCall (running.actionRow (.stopClk .dataIn)) = some 0xB#4 ∧
      ∃ t, exec (.stopClk .dataIn) running = .next t := ⟨by decide, _, rfl⟩

/-- `running` is a legal state. -/
theorem running_legal : LegalState running where
  st_legal := by decide
  xs_legal := by decide
  tx_length t h := by
    obtain rfl : encoderSeq 5 1 = t := Option.some.inj h
    decide
  rx_length := by decide
  k_range := by decide
  running_k _ := by decide
  armed_tx _ := by decide

/-- `running` at its last edge, which drives nothing. -/
theorem running_last_legal : LegalState { running with k := 68 } :=
  { running_legal with k_range := by decide, running_k := fun _ => by decide }

/-- A dirty read channel makes the samples unknown; clean, they are known; edge 68 is the last. -/
theorem witness_SampleEdgeResult :
    LegalState running ∧ 1 ≤ running.params.R ∧ running.engRun = true ∧ running.readUnknown = false ∧ running.wrArmed = true ∧
      running.lateWrite = false ∧ ({ running with lateWrite := true } : State).lateWrite = true ∧ running.tx = some (encoderSeq 5 1) ∧ running.k < 68 * running.params.R ∧
      LegalState { running with k := 68 } ∧ (68 : Nat) = 68 * running.params.R ∧
      LegalState { running with rdDirty := true } ∧
      ({ running with rdDirty := true } : State).readUnknown = true ∧ ready.engRun = false :=
  ⟨running_legal, by decide, by decide, by decide, by decide, rfl, rfl, by decide, by decide, running_last_legal, by decide,
    { running_legal with }, by decide, by decide⟩
theorem witness_LoopbackSample :
    fresh.env.loopback = true ∧ fresh.env.preNow = none ∧ 1 ≤ running.k ∧ running.k ∉ running.env.flipNow ∧
      running.k ∈ ({ running with env := { running.env with flipNow := [1] } } : State).env.flipNow ∧
      (State.atReset Params.reset false).env.loopback = false ∧
      (State.atReset Params.reset false).env.flipNow = [] ∧
      (State.atReset Params.reset false).env.preNow = none ∧
      ({ fresh with env := { fresh.env with preNow := some true } } : State).env.preNow = some true ∧ fresh.k = 0 ∧
      0 ∉ fresh.env.flipNow ∧
      0 ∈ ({ fresh with env := { fresh.env with flipNow := [0] } } : State).env.flipNow :=
  ⟨rfl, rfl, by decide, by decide, by decide, rfl, rfl, rfl, rfl, rfl, by decide, by decide⟩
theorem witness_IdleResult :
    ready.codesLegal = true ∧ ({ ready with stop := true } : State).stop = true ∧ ready.stop = false ∧
      ({ ready with cell := 5 } : State).cell ≠ ({ ready with cell := 5 } : State).lastObs ∧
      ready.cell = ready.lastObs := by decide

/-- Also for MarkerDeassertedResult. -/
theorem witness_MarkerAssertedResult :
    ready.codesLegal = true ∧ ready.begin.completes 0x8#4 = true ∧ 0 = ready.begin.callStatus 0x8#4 (ready.begin.usable .marker) ∧
      5 = (failing 0x8#4).begin.callStatus 0x8#4 ((failing 0x8#4).begin.usable .marker) := by decide
theorem witness_XferArmResult :
    running.codesLegal = true ∧ running.cap = some 5 ∧ 1 ≤ running.params.R ∧ running.begin.completes 0x9#4 = true ∧
      0 = running.begin.callStatus 0x9#4 (running.begin.usable .dataOut) ∧ running.wrDirty = false ∧
      ({ running with xs := 0 } : State).xs = 0b000#3 := by decide
theorem witness_XferStartResult :
    running.codesLegal = true ∧ 1 ≤ running.params.R ∧ ({ running with xs := 1 } : State).xs = 0b001#3 := by
  decide
theorem witness_XferWaitResult :
    sampled.codesLegal = true ∧ 1 ≤ sampled.params.R ∧
      sampled.rdCall = some ⟨0, true⟩ ∧ sampled.engRun = false ∧ sampled.begin.readReturns = true ∧
      sampled.rx = (true :: encoderSeq 5 1).map some ∧
      sampled.xs = 0b010#3 ∧ sampled.rdDirty = false ∧ running.engRun = true ∧
      ({ sampled with rdCall := some ⟨3, true⟩ } : State).begin.readReturns = true := by decide

/-- Also for XferStopRResult. -/
theorem witness_XferStopWResult :
    sampled.codesLegal = true ∧ sampled.begin.completes 0xB#4 = true ∧ 0 = sampled.begin.stopClkStatus .dataOut ∧
      0 = sampled.begin.stopClkStatus .dataIn ∧ ({ sampled with xs := 3 } : State).xs = 0b011#3 ∧
      ({ sampled with xs := 4 } : State).xs = 0b100#3 := by decide
theorem witness_VerifiedResult :
    verifying.codesLegal = true ∧ verifying.cap = some 5 ∧ verifying.rx = (true :: encoderSeq 5 1).map some ∧ verifying.tStart = some 0 ∧
      1 ≤ verifying.params.R ∧ (true :: encoderSeq 5 1).length = 68 * verifying.params.R + 1 := by decide

theorem witness_OnlyResetLeavesExited :
    exited.codesLegal = true ∧ exited.st = 0b101#3 ∧ exited.noReset ∧ ∃ t, step exited = .next t :=
  ⟨by decide, by decide, by unfold State.noReset; decide, _, rfl⟩
theorem witness_ExitOnlyFromIdleWithStop :
    after (step { exited with st := 0b000#3 }) (·.st) = some 0b101#3 := by decide
theorem witness_ReservedCodesNeverWritten :
    running.st.toNat ≤ 5 ∧ running.xs.toNat ≤ 4 ∧ (after (exec .sampleEdge running) (·.k)).isSome = true ∧
      6 ≤ ({ running with st := 0b110#3 } : State).st.toNat ∧
      5 ≤ ({ running with xs := 0b101#3 } : State).xs.toNat ∧
      5 ≤ ({ exited with xs := 0b101#3 } : State).xs.toNat := by decide

/-- An enabled step, and WAIT while the engine runs. -/
theorem witness_FsmOrder :
    sampled.st ≠ 0b000#3 ∧ sampled.fsmEnabled = true ∧
      after (exec (decodeState sampled.st) sampled) (·.xs) = some 0b011#3 ∧
      running.fsmEnabled = false ∧ after (exec (decodeState running.st) running) (·.xs) = some 0b010#3 := by
  decide

set_option maxRecDepth 4000 in
/-- Also for ErrorOutputs and RecordExactlyInVerified: each class of error is raised. -/
theorem witness_ErrorTable :
    after (exec .stMarkerAsserted { failing 0x8#4 with st := 1 }) (·.err) =
        some (some (.driverCallFailed 0x8#4 5)) ∧
      after (exec .stVerified { verifying with cap := some 7 }) (·.err) =
        some (some (.roundtripMismatch 7 5)) := by decide
theorem witness_UnwrittenReadsFault :
    ready.codesLegal = true ∧ running.codesLegal = true ∧ ready.cap = none ∧ running.cap = some 5 ∧ running.rx[1]? = some none ∧
      sampled.rx = (true :: encoderSeq 5 1).map some ∧
      ({ sampled with tStart := none } : State).tStart = none ∧
      1 ≤ running.params.R ∧ running.rdCall = some ⟨0, true⟩ ∧ running.rdDirty = false ∧
      ({ running with engRun := false } : State).begin.readReturns = true ∧
      ({ running with tx := none } : State).engRun = true ∧
      ({ running with tx := none } : State).wrArmed = true ∧ running.lateWrite = false ∧ running.k < 68 * running.params.R ∧
      running.k < running.rx.length ∧ 68 * running.params.R < ({ running with k := 69 } : State).k := by
  decide

/-- An instruction fetched, a turn with nothing to do, an FSM turn, a stimulus word and a table word. -/
theorem witness_StepRunsFetched :
    running.fetched = .instr .sampleEdge ∧ ({ fresh with queue := [.turn .fsm] } : State).fetched = .idle ∧
      ({ fresh with queue := [.stimulus 0xE0000000000000000#68] } : State).fetched =
        .refused (.undecodable (.illegalStimulus 0xE#4)) ∧
      ({ fresh with params := atR 0 } : State).fetched = .refused .badRepeatFactor ∧
      1 ≤ sampled.params.R ∧ sampled.queue = [.turn .fsm] ∧ sampled.boot = .released ∧
      decodeStimulus 0x30000000000000005#68 = .ok (.cellSet 5) ∧
      decodeStimulus 0xE0000000000000000#68 = .error (.illegalStimulus 0xE#4) ∧
      decodeOp (tableWord fresh.params (5 % 2 ^ 8)) = .ok .stopReq := by decide

/-- Each agent's turn at the head of the queue, and a bare word. -/
theorem witness_StepRunsFetched_turns :
    ({ fresh with queue := [.turn (.producerSet 5)] } : State).fetched = .instr (.cellSet 5) ∧
      ({ fresh with queue := [.turn .producerStop] } : State).fetched = .instr .stopReq ∧
      ({ fresh with queue := [.turn .reset] } : State).fetched = .instr .reset ∧
      ({ fresh with queue := [.turn .boot] } : State).fetched = .instr (.openLine .marker) ∧
      ({ fresh with queue := [.turn .boot], boot := .configureDataIn } : State).fetched =
        .instr (.configure .dataIn ⟨0, .rising, 69, .none⟩) ∧
      ({ ready with queue := [.turn .boot] } : State).fetched = .idle ∧
      fresh.queue = [] ∧ fresh.clockDue = false ∧
      ({ fresh with queue := [.word ⟨0x4#4, .none⟩] } : State).fetched = .instr .cellGet ∧
      decodeOp ⟨0x4#4, .value 5⟩ = .error (.operandForm 0x4#4) := by decide
theorem witness_BootReleasesFsm :
    ({ fresh with queue := [.turn .fsm] } : State).queue = [.turn .fsm] ∧ fresh.boot ≠ .released ∧
      1 ≤ Params.reset.R := by decide

/-- The five calls of boot are next. -/
def booting : State := { fresh with queue := List.replicate 5 (.turn .boot) }

/-- A boot in which every call succeeds: BOOT_DONE. -/
theorem witness_BootReleasesFsm_run :
    booting.blockRun ∧ booting.boot = .openMarker ∧ (∀ l, booting.handle l = none ∧ booting.clockCfg l = none) ∧
      ∃ statuses t, BootRun booting statuses t ∧ t.boot = .released ∧ statuses = List.replicate 5 0 ∧
        t.usable .dataIn = true :=
  ⟨by simp [State.blockRun, booting], rfl, by intro l; cases l <;> decide, _, _,
    .next (by unfold State.noReset; decide) rfl (.next (by unfold State.noReset; decide) rfl
      (.next (by unfold State.noReset; decide) rfl (.next (by unfold State.noReset; decide) rfl
        (.next (by unfold State.noReset; decide) rfl (.done _))))), by decide, by decide, by decide⟩

/-- A boot whose first OPEN_LINE fails is no BOOT_DONE, and the marker has no handle. -/
theorem witness_BootReleasesFsm_failing :
    ∃ statuses t, BootRun { booting with env := { booting.env with fails := [(0x6#4, 5)] } } statuses t ∧
      t.boot = .released ∧ statuses = [5, 0, 0, 0, 0] ∧ t.usable .marker = false :=
  ⟨_, _,
    .next (by unfold State.noReset; decide) rfl (.next (by unfold State.noReset; decide) rfl
      (.next (by unfold State.noReset; decide) rfl (.next (by unfold State.noReset; decide) rfl
        (.next (by unfold State.noReset; decide) rfl (.done _))))), by decide, by decide, by decide⟩

/-- BOOT_DONE holds of `ready`, and a step that is no reset goes on from it. -/
theorem witness_BootReleasesFsm_kept :
    ready.boot = .released ∧ (∀ l, ready.usable l = true) ∧ running.noReset ∧ running.boot = .released ∧
      (∀ l, running.usable l = true) ∧ ∃ t, step running = .next t :=
  ⟨rfl, by intro l; cases l <;> decide, by unfold State.noReset; decide, rfl,
    by intro l; cases l <;> decide, _, rfl⟩
theorem witness_ParametersStatic :
    (∃ t, exec .sampleEdge running = .next t) ∧ ∃ t, step running = .next t := ⟨⟨_, rfl⟩, _, rfl⟩
theorem witness_LegalStateKept : LegalState running ∧ ∃ t, step running = .next t := ⟨running_legal, _, rfl⟩

/-- Every register `running` needs is written. -/
theorem running_written : WrittenBeforeRead running where
  legal := running_legal
  repeat_legal := by decide
  block_run w h := by simp [running] at h
  cap_written _ := by decide
  start_written _ _ := by decide
  running_wait _ := by decide
  edges_written _ j h := by
    obtain rfl : j = 0 := Nat.lt_one_iff.1 h
    exact ⟨true, rfl⟩
  edges_done _ h := by simp [running] at h

/-- The marker is high around the transfer of `running`. -/
theorem running_bracket : MarkerBracket running where
  written := running_written
  driver := ⟨rfl, rfl⟩
  no_preset := rfl
  marker_open _ := by decide
  released_first h := absurd rfl h
  bracket := by decide

/-- `running` reads back what it sends. -/
theorem running_roundTrip : RoundTrip running where
  written := running_written
  driver := ⟨⟨rfl, rfl⟩, rfl⟩
  loopback := ⟨rfl, rfl, rfl⟩
  clean := ⟨rfl, rfl⟩
  boot_marker _ := by decide
  boot_dout _ := by decide
  boot_din _ := by decide
  boot_write _ := by decide
  boot_read _ := by decide
  released_first h := absurd rfl h
  no_error _ := rfl
  armed v h _ _ := by
    obtain rfl : (5 : Word) = v := Option.some.inj h
    exact ⟨rfl, rfl, rfl⟩
  read_issued _ _ := ⟨⟨0, true⟩, rfl, rfl⟩
  line v h _ _ _ := by
    obtain rfl : (5 : Word) = v := Option.some.inj h
    decide
  samples v _ _ j h1 h2 := absurd h2 (Nat.not_lt.2 h1)

theorem witness_WrittenBeforeReadKept : WrittenBeforeRead running ∧ ∃ t, step running = .next t :=
  ⟨running_written, _, rfl⟩
theorem witness_NoFaultOnAnyPath : WrittenBeforeRead running := running_written
theorem witness_InvariantsAtReset :
    1 ≤ Params.reset.R ∧ Params.reset.lastInit.toNat ≤ Params.reset.cellInit.toNat := by decide
theorem witness_MarkerBracketKept : MarkerBracket running ∧ ∃ t, step running = .next t :=
  ⟨running_bracket, _, rfl⟩

theorem running_noReset : running.noReset := by
  unfold State.noReset
  decide

/-- The SAMPLER's turn drives digit 1 of ENCODE(5, 1), so `dout` changes. -/
theorem witness_DoutChangesInsideBracket :
    MarkerBracket running ∧ running.noReset ∧ ∃ t, step running = .next t ∧ t.dout ≠ running.dout :=
  ⟨running_bracket, running_noReset, _, rfl, by decide⟩
theorem witness_RoundTripKept : RoundTrip running ∧ running.noReset ∧ ∃ t, step running = .next t :=
  ⟨running_roundTrip, running_noReset, _, rfl⟩

/-- `verifying` is a transfer that reads back what it sent. -/
theorem witness_RoundTripRecord : RoundTrip verifying ∧ verifying.st = 0b100#3 := by
  have hs : ∀ j, j < 69 → verifying.rx[j]? = ((true :: encoderSeq 5 1)[j]?).map some := by
    intro j _
    exact List.getElem?_map
  refine ⟨?_, rfl⟩
  exact {
    written := {
      legal := { running_legal with
        st_legal := by decide
        xs_legal := by decide
        rx_length := by decide
        k_range := by decide
        running_k := fun h => by simp [verifying, sampled] at h
        armed_tx := fun h => by simp [verifying] at h }
      repeat_legal := by decide
      block_run := fun w h => by simp [verifying, sampled] at h
      cap_written := fun _ => by decide
      start_written := fun _ _ => by decide
      running_wait := fun h => by simp [verifying, sampled] at h
      edges_written := fun _ j h => by
        have hl : j < (true :: encoderSeq 5 1).length := h
        exact ⟨(true :: encoderSeq 5 1)[j], by rw [hs j h, List.getElem?_eq_getElem hl]; rfl⟩
      edges_done := fun _ _ => by decide }
    driver := ⟨⟨rfl, rfl⟩, rfl⟩
    loopback := ⟨rfl, rfl, rfl⟩
    clean := ⟨rfl, rfl⟩
    boot_marker := fun _ => by decide
    boot_dout := fun _ => by decide
    boot_din := fun _ => by decide
    boot_write := fun _ => by decide
    boot_read := fun _ => by decide
    released_first := fun h => absurd rfl h
    no_error := fun _ => rfl
    armed := fun _ _ h => by simp [verifying] at h
    read_issued := fun h => by simp [verifying] at h
    line := fun _ _ h => by simp [verifying] at h
    samples := fun v h _ j h1 h2 => by
      obtain rfl : (5 : Word) = v := Option.some.inj h
      rw [hs j h2]
      obtain ⟨i, rfl⟩ : ∃ i, j = i + 1 := ⟨j - 1, by omega⟩
      rfl }

/-- Before the PRODUCER publishes 7. -/
def publishing : State := { ready with queue := [.turn (.producerSet 7), .turn .fsm] }

/-- A run of two steps: 7 is published, then captured. -/
theorem publishing_run : ∃ t, Run publishing [7] [7] t := by
  obtain ⟨t, ht⟩ : ∃ t, step publishing = .next t := ⟨_, rfl⟩
  obtain ⟨u, hu⟩ : ∃ u, step t = .next u := by cases ht; exact ⟨_, rfl⟩
  have h := Run.next ht (.next hu (.done u))
  cases ht
  cases hu
  exact ⟨_, h⟩

/-- A published value, and a captured one. -/
theorem witness_MonotonicNeverResends :
    publishing.cell = publishing.lastObs ∧ publishing.params.lastInit = publishing.params.cellInit ∧
      producerMonotonic [7] ∧ (∃ t, Run publishing [7] [7] t) ∧
      publishing.observedBelow ∧ publishing.noReset ∧ publishing.publishesHigher ∧
      (∃ t, step publishing = .next t) ∧
      after (step { ready with cell := 7, queue := [.turn .fsm] }) (·.st) = some 0b001#3 := by
  refine ⟨rfl, rfl, List.pairwise_singleton _ _, publishing_run, by unfold State.observedBelow; decide,
    by unfold State.noReset; decide, ?_, ⟨_, rfl⟩, by decide⟩
  intro v h
  obtain rfl : (7 : Word) = v := by injection h with h; injection h
  decide

end Sys2Proof.Tests
end

section
/-!
PROOF. The parameters are read and never written (R10, R35): first for each action of the block, then for every
form of next state an instruction can give, then for the fetch and the step.
-/

namespace Sys2Proof.Machine

/-! What each action that branches leaves of the parameters; the others are record updates of `State.begin`. -/

@[simp] theorem State.openLine_params (s : State) (l : Line) : (s.openLine l).params = s.params := by
  rw [State.openLine_eq]; rfl

@[simp] theorem State.configure_params (s : State) (h : Line) (c : ClockCfg) :
    (s.configure h c).params = s.params := by
  rw [State.configure_eq]; rfl

@[simp] theorem State.stopClk_params (s : State) (h : Line) : (s.stopClk h).params = s.params := by
  simp only [State.stopClk, State.stopFlags_eq, State.useScripted_params]

@[simp] theorem State.assertMarker_params (s : State) : s.assertMarker.params = s.params := by
  rw [State.assertMarker_eq]; rfl

@[simp] theorem State.deassertMarker_params (s : State) : s.deassertMarker.params = s.params := by
  rw [State.deassertMarker_eq]; rfl

@[simp] theorem State.armWrite_params (s : State) (v : Word) : (s.armWrite v).params = s.params := by
  rw [State.armWrite_eq]; rfl

@[simp] theorem State.stopWriteChannel_params (s : State) : s.stopWriteChannel.params = s.params := by
  rw [State.stopWriteChannel_eq]; rfl

@[simp] theorem State.stopReadChannel_params (s : State) : s.stopReadChannel.params = s.params := by
  rw [State.stopReadChannel_eq]; rfl

@[simp] theorem State.verify_params (s : State) (v : Word) (q : Digits) (t0 : Time) :
    (s.verify v q t0).params = s.params := by
  rw [State.verify_eq]

/-- RESET rebuilds the block's state at the parameters it finds (R151). -/
@[simp] theorem State.afterReset_params (s : State) : s.afterReset.params = s.params := rfl

/-! Instructions and steps. -/

/-- No form of next state writes a parameter. -/
theorem NextForm.params {s t : State} {i : Instr} (h : NextForm s i t) : t.params = s.params := by
  cases h
  case openLine l _ => exact s.begin.openLine_params l
  case configure l c _ _ _ => exact s.begin.configure_params l c
  case stopClk l _ _ => exact s.begin.stopClk_params l
  case assert => exact s.begin.assertMarker_params
  case deassert => exact s.begin.deassertMarker_params
  case arm v _ _ _ => exact s.begin.armWrite_params v
  case stopWrite => exact s.begin.stopWriteChannel_params
  case stopRead => exact s.begin.stopReadChannel_params
  case verify v q t0 _ _ _ _ _ => exact s.begin.verify_params v q t0
  case reset => exact s.begin.afterReset_params
  all_goals rfl

/-- No instruction writes a parameter; XFER runs a sub-state's action, which writes none either. -/
theorem exec_params {i : Instr} {s s' : State} (h : exec i s = .next s') : s'.params = s.params :=
  (exec_next h).params

/-- No step of the interleaving writes a parameter: neither the fetch nor what it runs does. -/
theorem step_params {s s' : State} (h : step s = .next s') : s'.params = s.params := by
  rcases step_next h with ⟨i, -, hexec⟩ | ⟨-, rfl⟩
  · exact (exec_params hexec).trans s.takeFetch_params
  · exact s.takeFetch.begin_params.trans s.takeFetch_params

/-- Settles O51: it holds, by the forms of next state an instruction can give. -/
theorem parametersStatic : Obligations.ParametersStatic := by
  unfold Obligations.ParametersStatic
  exact ⟨fun _ _ _ => exec_params, fun _ _ => step_params⟩

end Sys2Proof.Machine
end

section
/-!
PROOF. The state after reset is the table of R42: first the rows the model does not hold as a field of the same
shape (the receive buffer at its length, the two valid bits), then the table.
-/

namespace Sys2Proof.Machine

/-- No edge has written a digit of the receive buffer after reset (R26, R42). -/
@[simp] theorem State.atReset_rx (p : Params) (d : Bool) :
    (State.atReset p d).rx = List.replicate (68 * p.R + 1) none := rfl

/-- No record is pulsed after reset (R38, R42). -/
@[simp] theorem State.atReset_recValid (p : Params) (d : Bool) : (State.atReset p d).recValid = false := rfl

/-- No error is pulsed after reset (R38, R42). -/
@[simp] theorem State.atReset_errValid (p : Params) (d : Bool) : (State.atReset p d).errValid = false := rfl

/-- Settles O20: it holds, row by row of R42's table, in the table's order. -/
theorem resetStateTable : Obligations.ResetStateTable := by
  unfold Obligations.ResetStateTable
  refine ⟨fun p d => ?table, rfl, rfl, rfl⟩
  case table =>
    exact ⟨
      -- `st`, `xs`, `last_obs`, `cap`, `rcv`, `t_start`
      rfl, rfl, rfl, rfl, rfl, rfl,
      -- the buffers and the sample index
      rfl, State.atReset_rx p d, rfl,
      -- `matched`, `frame_ok`, `cyc_err`
      rfl, rfl, rfl,
      -- `wr_armed`, `eng_run`, `wr_dirty`, `rd_dirty`, `busy`
      rfl, rfl, rfl, rfl, rfl,
      -- the three handles and the two channel configurations
      rfl, rfl, rfl, rfl, rfl,
      -- the output lines and the shared state
      rfl, rfl, rfl, rfl,
      -- the valid bits
      State.atReset_recValid p d, State.atReset_errValid p d⟩

end Sys2Proof.Machine
end

section
/-!
PROOF. The frame word's layout (R61, R62): its value as an integer, its three fields, and the 68 logical digits it
packs, each kind of digit by a lemma of its own.
-/

namespace Sys2Proof.Machine

/-- START weighs 2^66, the value is shifted over END's two bits, and END is 2 (R62). -/
theorem encoderFrame_toNat (v : Word) : (encoderFrame v).toNat = 2 ^ 66 + 4 * v.toNat + 2 := by
  have hv : v.toNat < 2 ^ 64 := v.isLt
  have hstart : (0b01#2 ++ v).toNat = 2 ^ 64 + v.toNat := by
    rw [BitVec.toNat_append, ← Nat.shiftLeft_add_eq_or_of_lt hv]
    rfl
  have hend : (0b10#2).toNat < 2 ^ 2 := (0b10#2).isLt
  unfold encoderFrame
  rw [BitVec.toNat_append, ← Nat.shiftLeft_add_eq_or_of_lt hend, hstart, Nat.shiftLeft_eq, BitVec.toNat_ofNat]
  omega

/-! The fields. -/

theorem encoderFrame_start (v : Word) : (encoderFrame v).extractLsb' 66 2 = 0b01#2 := by
  ext i hi
  rw [BitVec.getElem_extractLsb', encoderFrame_getLsbD, if_neg (by omega), if_neg (by omega),
    Nat.add_sub_cancel_left, BitVec.getLsbD_eq_getElem hi]

theorem encoderFrame_value (v : Word) : (encoderFrame v).extractLsb' 2 64 = v := by
  ext i hi
  rw [BitVec.getElem_extractLsb', encoderFrame_getLsbD, if_neg (by omega), if_pos (by omega),
    Nat.add_sub_cancel_left, BitVec.getLsbD_eq_getElem hi]

theorem encoderFrame_end (v : Word) : (encoderFrame v).extractLsb' 0 2 = 0b10#2 := by
  ext i hi
  rw [BitVec.getElem_extractLsb', encoderFrame_getLsbD, if_pos (by omega), Nat.zero_add,
    BitVec.getLsbD_eq_getElem hi]

/-! The logical digits, in time order. -/

/-- The two START digits, 0 first (R61). -/
theorem encoderLogical_start (v : Word) : encoderLogical v 0 = false ∧ encoderLogical v 1 = true := by
  constructor <;> rw [encoderLogical, encoderFrame_getLsbD] <;> rfl

/-- The payload digits, most significant bit first (R61). -/
theorem encoderLogical_value (v : Word) {i : Nat} (hi : i < 64) :
    encoderLogical v (2 + i) = v.getLsbD (63 - i) := by
  have hbit : 67 - (2 + i) - 2 = 63 - i := by omega
  rw [encoderLogical, encoderFrame_getLsbD, if_neg (by omega), if_pos (by omega), hbit]

/-- The two END digits, 1 first (R61). -/
theorem encoderLogical_end (v : Word) : encoderLogical v 66 = true ∧ encoderLogical v 67 = false := by
  constructor <;> rw [encoderLogical, encoderFrame_getLsbD] <;> rfl

/-- Settles O5: it holds, the frame word read bit by bit. -/
theorem frameWordLayout : Obligations.FrameWordLayout := by
  unfold Obligations.FrameWordLayout
  intro v
  obtain ⟨hstart0, hstart1⟩ := encoderLogical_start v
  obtain ⟨hend0, hend1⟩ := encoderLogical_end v
  exact ⟨encoderFrame_toNat v, encoderFrame_start v, encoderFrame_value v, encoderFrame_end v, fun _ _ => rfl,
    hstart0, hstart1, fun _ => encoderLogical_value v, hend0, hend1⟩

end Sys2Proof.Machine
end

section
/-!
PROOF. The reserved codes of `st` and `xs` (R75): what each action of the FSM leaves in the two registers, that
every form of next state keeps them legal, and that every row of `st` and `xs` faults where one is not.
-/

namespace Sys2Proof.Machine

/-- The eight codes of a sequencing register (R73, R74). -/
theorem code3_cases (c : Code3) :
    c = 0 ∨ c = 1 ∨ c = 2 ∨ c = 3 ∨ c = 4 ∨ c = 5 ∨ c = 6 ∨ c = 7 := by
  revert c
  decide

/-! What each action leaves in `st` and `xs`, where it is not plainly a record update of `State.begin`. -/

@[simp] theorem State.openLine_codes (s : State) (l : Line) :
    (s.openLine l).st = s.st ∧ (s.openLine l).xs = s.xs := by
  rw [State.openLine_eq]; exact ⟨rfl, rfl⟩

@[simp] theorem State.configure_codes (s : State) (h : Line) (c : ClockCfg) :
    (s.configure h c).st = s.st ∧ (s.configure h c).xs = s.xs := by
  rw [State.configure_eq]; exact ⟨rfl, rfl⟩

@[simp] theorem State.stopClk_codes (s : State) (h : Line) :
    (s.stopClk h).st = s.st ∧ (s.stopClk h).xs = s.xs := by
  rw [State.stopClk, State.stopFlags_eq]; exact ⟨rfl, rfl⟩

@[simp] theorem State.assertMarker_codes (s : State) :
    s.assertMarker.st = stXferCode ∧ s.assertMarker.xs = xsArmCode := by
  rw [State.assertMarker_eq]; exact ⟨rfl, rfl⟩

@[simp] theorem State.deassertMarker_codes (s : State) :
    s.deassertMarker.st = stVerifiedCode ∧ s.deassertMarker.xs = s.xs := by
  rw [State.deassertMarker_eq]; exact ⟨rfl, rfl⟩

@[simp] theorem State.armWrite_codes (s : State) (v : Word) :
    (s.armWrite v).st = s.st ∧ (s.armWrite v).xs = xsStartCode := by
  rw [State.armWrite_eq]; exact ⟨rfl, rfl⟩

@[simp] theorem State.stopWriteChannel_codes (s : State) :
    s.stopWriteChannel.st = s.st ∧ s.stopWriteChannel.xs = xsStopRCode := by
  rw [State.stopWriteChannel_eq]; exact ⟨rfl, rfl⟩

@[simp] theorem State.stopReadChannel_codes (s : State) :
    s.stopReadChannel.st = stMarkerDeassertedCode ∧ s.stopReadChannel.xs = s.xs := by
  rw [State.stopReadChannel_eq]; exact ⟨rfl, rfl⟩

@[simp] theorem State.verify_codes (s : State) (v : Word) (q : Digits) (t0 : Time) :
    (s.verify v q t0).st = stIdleCode ∧ (s.verify v q t0).xs = s.xs := by
  rw [State.verify_eq]; exact ⟨rfl, rfl⟩

@[simp] theorem State.readClkIssue_codes (s : State) :
    s.readClkIssue.st = s.st ∧ s.readClkIssue.xs = s.xs := ⟨rfl, rfl⟩

@[simp] theorem State.waitDone_codes (s : State) (q : Digits) :
    (s.waitDone q).st = s.st ∧ (s.waitDone q).xs = xsStopWCode := ⟨rfl, rfl⟩

@[simp] theorem State.afterReset_codes (s : State) :
    s.afterReset.st = stIdleCode ∧ s.afterReset.xs = xsArmCode := ⟨rfl, rfl⟩

/-! No form of next state brings a reserved code in. -/

/-- Every form of next state keeps the codes legal: the forms named here write a register, the rest leave both. -/
theorem NextForm.codesLegal {s t : State} {i : Instr} (h : NextForm s i t) (hs : s.codesLegal = true) :
    t.codesLegal = true := by
  obtain ⟨hst, hxs⟩ := State.codesLegal_eq_true.1 hs
  rw [State.codesLegal_eq_true]
  cases h
  -- calls, which branch but write neither register
  case openLine l _ => simp [hst, hxs]
  case configure l c _ _ _ => simp [hst, hxs]
  case stopClk l _ _ => simp [hst, hxs]
  -- writes of `st`
  case idleExit => simp [hxs]
  case idleCapture => simp [hxs]
  case idleStay => simp [hxs]
  case deassert => simp [hxs]
  case stopRead => simp [hxs]
  case verify => simp [hxs]
  -- writes of `xs`
  case arm => simp [hst]
  case start => simp [hst]
  case complete => simp [hst]
  case stopWrite => simp [hst]
  -- writes of both
  case assert => simp
  case reset => simp
  all_goals exact ⟨hst, hxs⟩

/-- No instruction writes a reserved code; XFER runs a sub-state's action, which writes none either. -/
theorem exec_codesLegal {i : Instr} {s s' : State} (hs : s.codesLegal = true) (h : exec i s = .next s') :
    s'.codesLegal = true :=
  (exec_next h).codesLegal hs

/-! A state with a reserved code. -/

theorem State.codesLegal_eq_false {s : State} : s.codesLegal = false ↔ 6 ≤ s.st.toNat ∨ 5 ≤ s.xs.toNat := by
  rw [← Bool.not_eq_true, State.codesLegal_eq_true]
  omega

/-- Every row of `st` faults while either register holds a reserved code, whichever code the row has. -/
theorem exec_decodeState_reserved {s : State} (h : s.codesLegal = false) (c : Code3) :
    exec (decodeState c) s = .fault .reservedState := by
  rcases code3_cases c with rfl | rfl | rfl | rfl | rfl | rfl | rfl | rfl
  · exact State.fsmAction_reserved _ h
  · exact State.fsmAction_reserved _ h
  · exact State.fsmAction_reserved _ h
  · exact State.fsmAction_reserved _ h
  · exact State.fsmAction_reserved _ h
  · exact State.fsmAction_reserved _ h
  · rfl
  · rfl

/-- Every row of `xs` faults while either register holds a reserved code, whichever code the row has. -/
theorem exec_decodeSub_reserved {s : State} (h : s.codesLegal = false) (c : Code3) :
    exec (decodeSub c) s = .fault .reservedState := by
  rcases code3_cases c with rfl | rfl | rfl | rfl | rfl | rfl | rfl | rfl
  · exact State.fsmAction_reserved _ h
  · exact State.fsmAction_reserved _ h
  · exact State.fsmAction_reserved _ h
  · exact State.fsmAction_reserved _ h
  · exact State.fsmAction_reserved _ h
  · rfl
  · rfl
  · rfl

/-- With a reserved code the FSM has no enabled step (R75, R95). -/
theorem State.fsmEnabled_reserved {s : State} (h : s.codesLegal = false) : s.fsmEnabled = false := by
  simp [State.fsmEnabled, h]

/-- A state with a reserved code is not final (R75, R161). -/
theorem State.final_reserved {s : State} (h : s.codesLegal = false) : s.final = false := by
  simp [State.final, h]

/-- Settles O43: it holds, by the forms of next state for the writes and by the FSM's guard for the faults. -/
theorem reservedCodesNeverWritten : Obligations.ReservedCodesNeverWritten := by
  unfold Obligations.ReservedCodesNeverWritten
  refine ⟨fun i s s' hst hxs h => ?kept, fun s h => ?met, fun s => ⟨rfl, rfl, rfl, rfl, rfl⟩⟩
  case kept => exact State.codesLegal_eq_true.1 (exec_codesLegal (State.codesLegal_eq_true.2 ⟨hst, hxs⟩) h)
  case met =>
    have hc := State.codesLegal_eq_false.2 h
    exact ⟨exec_decodeState_reserved hc _, exec_decodeSub_reserved hc _, State.fsmEnabled_reserved hc,
      State.final_reserved hc⟩

end Sys2Proof.Machine
end

section
/-!
PROOF. The reserved operation ids (R77): as rows they are refused, and in a stimulus word they are no PRODUCER
action (R78).
-/

namespace Sys2Proof.Machine

/-- A stimulus word that carries no PRODUCER action is refused (R78). -/
theorem decodeStimulus_illegal {w : StimulusWord} (hset : stimulusOp w ≠ opCellSet)
    (hstop : stimulusOp w ≠ opStopReq) (hreset : stimulusOp w ≠ opReset) :
    decodeStimulus w = .error (.illegalStimulus (stimulusOp w)) := by
  unfold decodeStimulus
  split
  case h_1 hop => exact absurd (BitVec.eq_of_toNat_eq hop) hset
  case h_2 hop => exact absurd (BitVec.eq_of_toNat_eq hop) hstop
  case h_3 hop => exact absurd (BitVec.eq_of_toNat_eq hop) hreset
  case h_4 => rfl

/-- Settles O4: it holds, for neither id is that of a PRODUCER action. -/
theorem reservedIdsRefused : Obligations.ReservedIdsRefused := by
  unfold Obligations.ReservedIdsRefused
  refine ⟨fun _ => rfl, fun _ => rfl, fun w hop => ?stimulus⟩
  case stimulus =>
    have hne : stimulusOp w ≠ opCellSet ∧ stimulusOp w ≠ opStopReq ∧ stimulusOp w ≠ opReset := by
      rcases hop with hop | hop <;> rw [hop] <;> decide
    obtain ⟨hset, hstop, hreset⟩ := hne
    exact decodeStimulus_illegal hset hstop hreset

end Sys2Proof.Machine
end

section
/-!
PROOF. What refuses illegal input (R71, R72): each operand check with what it answers, then each operation and FSM
action that asks one.
-/

namespace Sys2Proof.Machine

/-! The operand checks. -/

@[simp] theorem encoderRefusal_zero : encoderRefusal 0 = some .badRepeatFactor := rfl

@[simp] theorem decoderRefusal_zero (q : Digits) : decoderRefusal q 0 = some .badRepeatFactor := rfl

/-- A read-back of the wrong length (R71). -/
theorem decoderRefusal_length {q : Digits} {R : Nat} (hR : 1 ≤ R) (hq : q.length ≠ rbLen R) :
    decoderRefusal q R = some .badReadbackLength := by
  rw [decoderRefusal, if_neg (by omega), if_neg hq]

theorem State.configureRefusal_zero {s : State} {h : Line} (c : ClockCfg) (hh : h ≠ .marker)
    (hR : s.params.R = 0) : s.configureRefusal h c = some .badRepeatFactor := by
  rw [State.configureRefusal, if_neg hh, if_pos (by omega)]

theorem State.writeClkRefusal_zero {s : State} (bits : Digits) (hR : s.params.R = 0) :
    s.writeClkRefusal .dataOut bits = some .badRepeatFactor := by
  rw [State.writeClkRefusal, if_neg (by simp), if_pos (by omega)]

theorem State.readClkRefusal_zero {s : State} (n : Nat) (hR : s.params.R = 0) :
    s.readClkRefusal .dataIn n = some .badRepeatFactor := by
  rw [State.readClkRefusal, if_neg (by simp), if_pos (by omega)]

/-! The units: they refuse what their check refuses. -/

theorem exec_encode_refused {s : State} {r : Refusal} (v : Word) (h : encoderRefusal s.params.R = some r) :
    exec (.encode v) s = .refused r := by
  simp only [exec, execEncode, h]

theorem exec_decode_refused {s : State} {q : Digits} {r : Refusal} (h : decoderRefusal q s.params.R = some r) :
    exec (.decode q) s = .refused r := by
  simp only [exec, execDecode, h]

theorem exec_frameCheck_refused {s : State} {q : Digits} {r : Refusal}
    (h : decoderRefusal q s.params.R = some r) : exec (.frameCheck q) s = .refused r := by
  simp only [exec, execFrameCheck, h]

/-! The driver calls and the sample edge. -/

theorem exec_configure_zero {s : State} {h : Line} (c : ClockCfg) (hh : h ≠ .marker) (hR : s.params.R = 0) :
    exec (.configure h c) s = .refused .badRepeatFactor := by
  simp only [exec, execConfigure, State.configureRefusal_zero c hh hR]

theorem exec_writeClk_zero {s : State} (bits : Digits) (hR : s.params.R = 0) :
    exec (.writeClk .dataOut bits) s = .refused .badRepeatFactor := by
  simp only [exec, execWriteClk, State.writeClkRefusal_zero bits hR]

theorem exec_readClk_zero {s : State} (n : Nat) (hR : s.params.R = 0) :
    exec (.readClk .dataIn n) s = .refused .badRepeatFactor := by
  simp only [exec, execReadClk, State.readClkRefusal_zero n hR]

theorem exec_sampleEdge_zero {s : State} (hR : s.params.R = 0) (he : s.engRun = true) :
    exec .sampleEdge s = .refused .badRepeatFactor := by
  simp only [exec, execSampleEdge, State.sampleEdge, State.begin_engRun, he, Bool.true_eq_false, if_false]
  exact State.withRepeat_zero _ hR

/-! The actions of the FSM. -/

theorem exec_xsArm_zero {s : State} {v : Word} (hc : s.codesLegal = true) (hR : s.params.R = 0)
    (hv : s.cap = some v) : exec .xsArm s = .refused .badRepeatFactor := by
  rw [exec, execXsArm, State.fsmAction_of _ hc]
  simp only [State.xferArm, State.begin_cap, State.begin_params, hv, hR, encoderRefusal_zero]

theorem exec_xsStart_zero {s : State} (hc : s.codesLegal = true) (hR : s.params.R = 0) :
    exec .xsStart s = .refused .badRepeatFactor := by
  rw [exec, execXsStart, State.fsmAction_of _ hc]
  exact State.withRepeat_zero _ hR

theorem exec_xsWait_zero {s : State} (hc : s.codesLegal = true) (hR : s.params.R = 0) (he : s.engRun = false)
    (hr : s.begin.readReturns = true) : exec .xsWait s = .refused .badRepeatFactor := by
  rw [exec, execXsWait, State.fsmAction_of _ hc]
  simp only [State.xferWait, State.begin_engRun, he, hr, Bool.not_true, Bool.or_self, Bool.false_eq_true, if_false]
  exact State.withRepeat_zero _ hR

/-- VERIFIED refuses what DECODE refuses, once every register it reads is written (R104). -/
theorem exec_stVerified_refused {s : State} {v : Word} {q : Digits} {t0 : Time} {r : Refusal}
    (hc : s.codesLegal = true) (hv : s.cap = some v) (hq : s.rx = q.map some) (ht : s.tStart = some t0)
    (h : decoderRefusal q s.params.R = some r) : exec .stVerified s = .refused r := by
  rw [exec, execStVerified, State.fsmAction_of _ hc]
  simp only [State.verified, State.begin_cap, State.begin_rx, State.begin_tStart, State.begin_params, hv, hq, ht,
    allWritten_map_some, h]

/-- Settles O15: it holds, each refusal by the check that the operation asks first. -/
theorem unitsRefuseIllegalInput : Obligations.UnitsRefuseIllegalInput := by
  unfold Obligations.UnitsRefuseIllegalInput
  have hdec0 : ∀ (q : Digits) (s : State), s.params.R = 0 →
      decoderRefusal q s.params.R = some .badRepeatFactor :=
    fun q _ hR => hR ▸ decoderRefusal_zero q
  refine ⟨fun v q s hR => ?units, fun q s hR hq => ?length, fun bits n s hR => ?calls,
    fun h c s hh hR => exec_configure_zero c hh hR, fun s hR hc => ?fsm,
    fun s v q t0 hc hv hq ht => ?verified, fun s => step_badRepeat⟩
  case units =>
    exact ⟨exec_encode_refused v (hR ▸ encoderRefusal_zero), exec_decode_refused (hdec0 q s hR),
      exec_frameCheck_refused (hdec0 q s hR)⟩
  case length =>
    have hlen := decoderRefusal_length hR hq
    exact ⟨exec_decode_refused hlen, exec_frameCheck_refused hlen⟩
  case calls => exact ⟨exec_writeClk_zero bits hR, exec_readClk_zero n hR, exec_sampleEdge_zero hR⟩
  case fsm =>
    exact ⟨fun v => exec_xsArm_zero hc hR, exec_xsStart_zero hc hR, exec_xsWait_zero hc hR⟩
  case verified =>
    exact ⟨fun hR => exec_stVerified_refused hc hv hq ht (hdec0 q s hR),
      fun hR hlen => exec_stVerified_refused hc hv hq ht (decoderRefusal_length hR hlen)⟩

end Sys2Proof.Machine
end

section
/-!
PROOF. The sequence of an encoded value (R82 to R84): its length, its 68 repeat blocks, and the value read back from
the payload blocks.
-/

namespace Sys2Proof.Machine

/-- Settles O6: it holds, the sequence having one digit for each index below 68·R. -/
theorem encodedLength : Obligations.EncodedLength := by
  unfold Obligations.EncodedLength
  intro v R
  rw [encoderSeq, List.length_map, List.length_range]

/-- Every digit of repeat block `b` is logical digit `b` (R64). -/
theorem encoderSeq_block (v : Word) {R j b : Nat} (hb : b < 68) (hlo : b * R ≤ j) (hhi : j < (b + 1) * R) :
    (encoderSeq v R)[j]? = some (encoderLogical v b) := by
  have hdiv : j / R = b := Nat.div_eq_of_lt_le hlo hhi
  have hlen : j < physLen R := hhi.trans_le (Nat.mul_le_mul_right R hb)
  rw [encoderSeq_getElem?, if_pos hlen, hdiv]

/-- Every digit of payload block `i` is bit 63 − i of the value (R83). -/
theorem encoderSeq_payload (v : Word) {R j i : Nat} (hi : i < 64) (hlo : (2 + i) * R ≤ j)
    (hhi : j < (3 + i) * R) : (encoderSeq v R)[j]? = some (v.getLsbD (63 - i)) := by
  have hnext : 3 + i = 2 + i + 1 := by omega
  rw [encoderSeq_block v (by omega) hlo (hnext ▸ hhi), encoderLogical_value v hi]

/-- Settles O7: it holds, each block by its logical digit. -/
theorem encodedBlocks : Obligations.EncodedBlocks := by
  unfold Obligations.EncodedBlocks
  intro v R j
  obtain ⟨hstart0, hstart1⟩ := encoderLogical_start v
  obtain ⟨hend0, hend1⟩ := encoderLogical_end v
  refine ⟨fun hhi => ?start0, fun hlo hhi => ?start1, fun i => encoderSeq_payload v,
    fun hlo hhi => ?end0, fun hlo hhi => ?end1⟩
  case start0 => rw [← hstart0]; exact encoderSeq_block v (by omega) (by omega) (by omega)
  case start1 => rw [← hstart1]; exact encoderSeq_block v (by omega) (by omega) hhi
  case end0 => rw [← hend0]; exact encoderSeq_block v (by omega) hlo hhi
  case end1 => rw [← hend1]; exact encoderSeq_block v (by omega) hlo hhi

/-- The first digit of payload block `i`, which there is for R ≥ 1 (R84). -/
theorem encoderSeq_payload_first (v : Word) {R i : Nat} (hR : 1 ≤ R) (hi : i < 64) :
    (encoderSeq v R)[(2 + i) * R]? = some (v.getLsbD (63 - i)) :=
  encoderSeq_payload v hi le_rfl (Nat.mul_lt_mul_of_pos_right (by omega) hR)

/-- Bit `k` of the value stands in payload block 63 − k, so the sequence determines the value (R84). -/
theorem encoderSeq_injective {R : Nat} (hR : 1 ≤ R) {v w : Word} (h : encoderSeq v R = encoderSeq w R) :
    v = w := by
  refine BitVec.eq_of_getLsbD_eq fun k hk => ?_
  have hbit : 63 - (63 - k) = k := by omega
  have hi : 63 - k < 64 := by omega
  have hv := encoderSeq_payload_first v hR hi
  have hw := encoderSeq_payload_first w hR hi
  rw [hbit] at hv hw
  exact Option.some.inj (hv.symm.trans (h ▸ hw))

/-- Settles O8: it holds, by the first digit of each payload block. -/
theorem encodeInjective : Obligations.EncodeInjective := by
  unfold Obligations.EncodeInjective
  exact fun R hR => ⟨fun _ _ => encoderSeq_injective hR, fun v _ => encoderSeq_payload_first v hR⟩

end Sys2Proof.Machine
end

section
/-!
PROOF. Which digits of a read-back decide the decoded value (R89): the value is decided by the logical digits of the
payload blocks, and a logical digit is the first digit of its block.
-/

namespace Sys2Proof.Machine

/-- Two read-backs decode to one value exactly when their payload blocks have the same logical digits (R68). -/
theorem decoderValue_eq_iff {p q : Digits} {R : Nat} :
    decoderValue p R = decoderValue q R ↔
      ∀ b, 2 ≤ b → b ≤ 65 → decoderLogical p R b = decoderLogical q R b := by
  constructor
  · intro h b hlo hhi
    have hb : 65 - (65 - b) = b := by omega
    have hp := decoderValue_getLsbD p R (65 - b) (by omega)
    have hq := decoderValue_getLsbD q R (65 - b) (by omega)
    rw [hb] at hp hq
    rw [← hp, h, hq]
  · intro h
    refine BitVec.eq_of_getLsbD_eq fun i hi => ?_
    rw [decoderValue_getLsbD p R i hi, decoderValue_getLsbD q R i hi]
    exact h (65 - i) (by omega) (by omega)

/-- Writing the first digit of block `b` sets its logical digit (R67). -/
theorem decoderLogical_set_first {q : Digits} {R b : Nat} (d : Bool) (h : 1 + b * R < q.length) :
    decoderLogical (q.set (1 + b * R) d) R b = d := by
  rw [decoderLogical_eq, List.getD_eq_getElem?_getD, List.getElem?_set_self h, Option.getD_some]

/-- Writing a digit that is not first in its block leaves every logical digit (R67): the first digit of block `c`
stands at a multiple of `R` after the leading sample. -/
theorem decoderLogical_set_later (q : Digits) {R t : Nat} (b c : Nat) (d : Bool) (ht : 1 ≤ t) (htR : t < R) :
    decoderLogical (q.set (1 + b * R + t) d) R c = decoderLogical q R c := by
  have hne : 1 + b * R + t ≠ 1 + c * R := by
    intro heq
    have hmod : (b * R + t) % R = (c * R) % R := by congr 1; omega
    rw [Nat.mul_add_mod_of_lt htR, Nat.mul_mod_left] at hmod
    omega
  rw [decoderLogical_eq, decoderLogical_eq, List.getD_eq_getElem?_getD, List.getElem?_set_ne hne,
    List.getD_eq_getElem?_getD]

/-- Settles O16: it holds, the first digit of a payload block being its logical digit and no other digit being one. -/
theorem firstSamplePolicy : Obligations.FirstSamplePolicy := by
  unfold Obligations.FirstSamplePolicy
  intro q R b t _ hq hlo hhi htR
  refine ⟨fun ht heq => ?first, fun ht => ?later⟩
  case first =>
    subst ht
    have hblock : b * R ≤ 65 * R := Nat.mul_le_mul_right R hhi
    have hkeep := decoderValue_eq_iff.1 heq b hlo hhi
    rw [Nat.add_zero, decoderLogical_set_first _ (by omega), decoderLogical_eq] at hkeep
    exact Bool.not_ne_self _ hkeep
  case later => exact decoderValue_eq_iff.2 fun c _ _ => decoderLogical_set_later q b c _ ht htR

end Sys2Proof.Machine
end

section
/-!
PROOF. One record per visit to VERIFIED and none elsewhere (R104, R110): first what each action that branches does to
the record output, then that VERIFIED is the one form of next state that pulses it.
-/

namespace Sys2Proof.Machine

/-! The record output after each action that branches; the others are record updates of `State.begin`. -/

@[simp] theorem State.openLine_record (s : State) (l : Line) : (s.openLine l).record = s.record := by
  rw [State.openLine_eq]; rfl

@[simp] theorem State.configure_record (s : State) (h : Line) (c : ClockCfg) :
    (s.configure h c).record = s.record := by
  rw [State.configure_eq]; rfl

@[simp] theorem State.stopClk_record (s : State) (h : Line) : (s.stopClk h).record = s.record := by
  rw [State.stopClk, State.stopFlags_eq]; rfl

@[simp] theorem State.assertMarker_record (s : State) : s.assertMarker.record = s.record := by
  rw [State.assertMarker_eq]; rfl

@[simp] theorem State.deassertMarker_record (s : State) : s.deassertMarker.record = s.record := by
  rw [State.deassertMarker_eq]; rfl

@[simp] theorem State.armWrite_record (s : State) (v : Word) : (s.armWrite v).record = s.record := by
  rw [State.armWrite_eq]; rfl

@[simp] theorem State.stopWriteChannel_record (s : State) : s.stopWriteChannel.record = s.record := by
  rw [State.stopWriteChannel_eq]; rfl

@[simp] theorem State.stopReadChannel_record (s : State) : s.stopReadChannel.record = s.record := by
  rw [State.stopReadChannel_eq]; rfl

/-- RESET drops a record with the rest of the block's state (R42, R151). -/
@[simp] theorem State.afterReset_record (s : State) : s.afterReset.record = none := rfl

/-- VERIFIED pulses its record whether the values match or not (R104). -/
@[simp] theorem State.verify_record_isSome (s : State) (v : Word) (q : Digits) (t0 : Time) :
    (s.verify v q t0).record.isSome = true := by
  rw [State.verify_eq]; rfl

/-! Instructions. -/

/-- No sub-state of XFER runs VERIFIED's action. -/
theorem decodeSub_ne_stVerified : ∀ c : Code3, decodeSub c ≠ .stVerified := by decide

/-- VERIFIED's row runs for VERIFIED alone: XFER stands for the row of its sub-state (R93). -/
theorem State.actionRow_eq_stVerified {s : State} {i : Instr} : s.actionRow i = .stVerified ↔ i = .stVerified := by
  unfold State.actionRow
  split
  · next hxfer => simp [hxfer, decodeSub_ne_stVerified]
  · rfl

/-- The record output carries a value after VERIFIED's form and after no other: `State.begin` ends the last pulse
(R39), and every other form leaves it ended. -/
theorem NextForm.record_isSome {s t : State} {i : Instr} (h : NextForm s i t) :
    t.record.isSome = true ↔ i = .stVerified := by
  cases h
  case verify v q t0 _ _ _ _ _ => simp
  -- forms that branch, and RESET
  case openLine | configure | stopClk | assert | deassert | arm | stopWrite | stopRead | reset => simp
  -- a turn that waits, which VERIFIED never does
  case waits _ _ hne _ _ _ _ _ => simp [hne]
  -- plain updates of `State.begin`
  all_goals exact iff_of_false Bool.false_ne_true (by simp)

/-- Settles O47: it holds, by the forms of next state an instruction can give. -/
theorem recordExactlyInVerified : Obligations.RecordExactlyInVerified := by
  unfold Obligations.RecordExactlyInVerified
  intro i s s' h
  rw [← Option.isSome_iff_ne_none, (exec_next h).record_isSome, State.actionRow_eq_stVerified]

end Sys2Proof.Machine
end

section
/-!
PROOF. One poll of IDLE (R96): the three branches of the poll, each under its own condition, then the action.
-/

namespace Sys2Proof.Machine

/-- With legal codes the action of IDLE is one poll on the state with its pulses ended. -/
theorem exec_stIdle_of {s : State} (h : s.codesLegal = true) : exec .stIdle s = .next s.begin.idle :=
  State.fsmAction_of _ h

/-- A set stop flag exits, whatever the cell holds: `stop` is read first. -/
theorem State.idle_of_stop {s : State} (hstop : s.stop = true) : s.idle = { s with st := stExitedCode } := by
  rcases s.idle_cases with ⟨-, hidle⟩ | ⟨hclear, -⟩ | ⟨hclear, -⟩
  · exact hidle
  · simp [hstop] at hclear
  · simp [hstop] at hclear

/-- Without a stop, a cell that differs from the last observed value is captured. -/
theorem State.idle_of_new {s : State} (hstop : s.stop = false) (hnew : s.cell ≠ s.lastObs) :
    s.idle =
      { s with cap := some s.cell, lastObs := s.cell, cycErr := false, st := stMarkerAssertedCode } := by
  rcases s.idle_cases with ⟨hset, -⟩ | ⟨-, -, hidle⟩ | ⟨-, hsame, -⟩
  · simp [hstop] at hset
  · exact hidle
  · exact absurd hsame hnew

/-- Without a stop, a cell at the last observed value leaves the FSM in IDLE. -/
theorem State.idle_of_same {s : State} (hstop : s.stop = false) (hsame : s.cell = s.lastObs) :
    s.idle = { s with st := stIdleCode } := by
  rcases s.idle_cases with ⟨hset, -⟩ | ⟨-, hnew, -⟩ | ⟨-, -, hidle⟩
  · simp [hstop] at hset
  · exact absurd hsame hnew
  · exact hidle

/-- Settles O31: it holds, branch by branch of the poll; the start of the step changes nothing the poll reads. -/
theorem idleResult : Obligations.IdleResult := by
  unfold Obligations.IdleResult
  intro s hlegal
  rw [exec_stIdle_of hlegal]
  refine ⟨fun hstop => ?exit, fun hstop hnew => ?capture, fun hstop hsame => ?stay⟩
  case exit => rw [State.idle_of_stop (s := s.begin) hstop]
  case capture => rw [State.idle_of_new (s := s.begin) hstop hnew]; rfl
  case stay => rw [State.idle_of_same (s := s.begin) hstop hsame]

end Sys2Proof.Machine
end

section
/-!
PROOF. The encodings (R73 to R78): a stimulus word is its op and its operand, so decoding and encoding undo each
other; the rows of the three code spaces round-trip one by one.
-/

namespace Sys2Proof.Machine

/-! Stimulus words, field by field. -/

@[simp] theorem stimulusOp_stimulusWord (op : OpId) (v : Word) : stimulusOp (stimulusWord op v) = op :=
  BitVec.extractLsb'_append_eq_left

@[simp] theorem stimulusOperand_stimulusWord (op : OpId) (v : Word) : stimulusOperand (stimulusWord op v) = v :=
  BitVec.extractLsb'_append_eq_right

/-- A stimulus word is its op and its operand (R78). -/
theorem stimulusWord_fields (w : StimulusWord) : stimulusWord (stimulusOp w) (stimulusOperand w) = w := by
  unfold stimulusWord stimulusOp stimulusOperand
  exact (BitVec.extractLsb'_append_extractLsb'_eq_extractLsb' rfl).trans BitVec.extractLsb'_eq_self

/-- The stimulus word with a given op and operand is the only one with these fields. -/
theorem stimulusWord_eq_iff {w : StimulusWord} {op : OpId} {v : Word} :
    stimulusWord op v = w ↔ stimulusOp w = op ∧ stimulusOperand w = v := by
  constructor
  · rintro rfl
    exact ⟨stimulusOp_stimulusWord op v, stimulusOperand_stimulusWord op v⟩
  · rintro ⟨rfl, rfl⟩
    exact stimulusWord_fields w

/-! What a word with each PRODUCER op decodes to. -/

theorem decodeStimulus_of_cellSet {w : StimulusWord} (h : stimulusOp w = opCellSet) :
    decodeStimulus w = .ok (.cellSet (stimulusOperand w)) := by
  simp [decodeStimulus, h]

theorem decodeStimulus_of_stopReq {w : StimulusWord} (h : stimulusOp w = opStopReq)
    (hz : stimulusOperand w = 0) : decodeStimulus w = .ok .stopReq := by
  simp [decodeStimulus, h, hz]

theorem decodeStimulus_of_reset {w : StimulusWord} (h : stimulusOp w = opReset)
    (hz : stimulusOperand w = 0) : decodeStimulus w = .ok .reset := by
  simp [decodeStimulus, h, hz]

/-- A word that decodes has the op and the operand of what it decodes to. -/
theorem encodeStimulus_of_decode {w : StimulusWord} {i : Instr} (h : decodeStimulus w = .ok i) :
    encodeStimulus i = some w := by
  unfold decodeStimulus at h
  split at h
  case h_1 hop =>
    cases h
    exact congrArg some (stimulusWord_eq_iff.2 ⟨BitVec.eq_of_toNat_eq hop, rfl⟩)
  case h_2 hop =>
    split at h
    case isTrue hz =>
      cases h
      exact congrArg some (stimulusWord_eq_iff.2 ⟨BitVec.eq_of_toNat_eq hop, hz⟩)
    case isFalse => cases h
  case h_3 hop =>
    split at h
    case isTrue hz =>
      cases h
      exact congrArg some (stimulusWord_eq_iff.2 ⟨BitVec.eq_of_toNat_eq hop, hz⟩)
    case isFalse => cases h
  case h_4 => cases h

/-- The word of a PRODUCER action or a reset decodes to it; no other instruction has one. -/
theorem decodeStimulus_of_encode {w : StimulusWord} {i : Instr} (h : encodeStimulus i = some w) :
    decodeStimulus w = .ok i := by
  cases i
  case cellSet v =>
    obtain ⟨hop, rfl⟩ := stimulusWord_eq_iff.1 (Option.some.inj h)
    exact decodeStimulus_of_cellSet hop
  case stopReq =>
    obtain ⟨hop, hz⟩ := stimulusWord_eq_iff.1 (Option.some.inj h)
    exact decodeStimulus_of_stopReq hop hz
  case reset =>
    obtain ⟨hop, hz⟩ := stimulusWord_eq_iff.1 (Option.some.inj h)
    exact decodeStimulus_of_reset hop hz
  all_goals cases h

/-- Settles O1: it holds, a stimulus word being nothing but its two fields. -/
theorem stimulusWordsExact : Obligations.StimulusWordsExact := by
  unfold Obligations.StimulusWordsExact
  exact ⟨fun _ => rfl, rfl, rfl, fun _ _ => ⟨encodeStimulus_of_decode, decodeStimulus_of_encode⟩,
    fun _ => decodeStimulus_illegal⟩

/-! The rows of the table. -/

/-- Every row decodes from its code. -/
theorem decodeCode_encodeCode (i : Instr) : decodeCode (encodeCode i) = .ok i := by
  cases i <;> rfl

/-- An operation word that decodes is the code of what it decodes to: the id names the row and the operands have its
form (R76). -/
theorem encodeCode_of_decodeOp {w : OpWord} {i : Instr} (h : decodeOp w = .ok i) : encodeCode i = .op w := by
  obtain ⟨op, operands⟩ := w
  rcases opId_cases op with rfl | rfl | rfl | rfl | rfl | rfl | rfl | rfl | rfl | rfl | rfl | rfl | rfl | rfl |
    rfl | rfl <;> cases operands <;> cases h <;> rfl

/-- The codes of `st` are those of its rows (R73). -/
theorem encodeCode_decodeState (c : Code3) : encodeCode (decodeState c) = .state c := by
  revert c
  decide

/-- The codes of `xs` are those of its rows (R74). -/
theorem encodeCode_decodeSub (c : Code3) : encodeCode (decodeSub c) = .sub c := by
  revert c
  decide

/-- Settles O2: it holds, space by space. -/
theorem tableCodesRoundTrip : Obligations.TableCodesRoundTrip := by
  unfold Obligations.TableCodesRoundTrip
  refine ⟨decodeCode_encodeCode, fun c i h => ?back⟩
  case back =>
    cases c with
    | op w => exact encodeCode_of_decodeOp h
    | state c => cases h; exact encodeCode_decodeState c
    | sub c => cases h; exact encodeCode_decodeSub c

/-- Settles O3: it holds, each word by the row it is the code of. -/
theorem knownWordsDecode : Obligations.KnownWordsDecode := by
  unfold Obligations.KnownWordsDecode
  exact ⟨rfl, rfl, rfl, rfl, rfl, rfl, decodeStimulus_of_encode rfl, decodeStimulus_of_encode rfl,
    decodeStimulus_of_encode rfl⟩

end Sys2Proof.Machine
end

section
/-!
PROOF. The combinational units (R61 to R71, R81 to R92): when ENCODE, DECODE and FRAME_CHECK complete, what the value
and the frame bit are in terms of the digits, and that both recover what ENCODE framed behind any leading digit.
-/

namespace Sys2Proof.Machine

/-! Completion. -/

theorem exec_encode_of {s : State} (v : Word) (hR : 1 ≤ s.params.R) :
    exec (.encode v) s =
      .next { s.begin with encValue := v, ret := .frame (encoderFrame v) (encoderSeq v s.params.R) } := by
  simp only [exec, execEncode, encoderRefusal_eq_none.2 hR]

theorem exec_decode_of {s : State} {q : Digits} (hR : 1 ≤ s.params.R) (hq : q.length = rbLen s.params.R) :
    exec (.decode q) s = .next { s.begin with decRb := q, ret := .value (decoderValue q s.params.R) } := by
  simp only [exec, execDecode, decoderRefusal_eq_none.2 ⟨hR, hq⟩]

theorem exec_frameCheck_of {s : State} {q : Digits} (hR : 1 ≤ s.params.R) (hq : q.length = rbLen s.params.R) :
    exec (.frameCheck q) s = .next { s.begin with decRb := q, ret := .bit (decoderFrameOk q s.params.R) } := by
  simp only [exec, execFrameCheck, decoderRefusal_eq_none.2 ⟨hR, hq⟩]

/-! What the units compute. -/

/-- A digit of a sequence is the logical digit of its block (R64, R81). -/
theorem encoderSeq_digit (v : Word) {R j : Nat} (hj : j < physLen R) :
    (encoderSeq v R)[j]? = some ((encoderFrame v).getLsbD (67 - j / R)) := by
  rw [encoderSeq_getElem?, if_pos hj]
  rfl

theorem encoderSeq_length (v : Word) (R : Nat) : (encoderSeq v R).length = physLen R := encodedLength v R

/-- Most-significant-first assembly is the weighted sum of the digits. -/
theorem foldl_digits_eq_sum (f : Nat → Bool) (n : Nat) :
    (List.range n).foldl (fun acc i => 2 * acc + (f i).toNat) 0 =
      ∑ i ∈ Finset.range n, (f i).toNat * 2 ^ (n - 1 - i) := by
  induction n with
  | zero => rfl
  | succ n ih =>
    rw [List.range_succ, List.foldl_append, List.foldl_cons, List.foldl_nil, ih, Finset.sum_range_succ,
      Finset.mul_sum, Nat.add_sub_cancel, Nat.sub_self, pow_zero, mul_one]
    congr 1
    refine Finset.sum_congr rfl fun i hi => ?_
    have hpow : n - i = n - 1 - i + 1 := by have := Finset.mem_range.1 hi; omega
    rw [hpow, pow_succ]
    ring

/-- Digits assembled most significant first stay below the power of their number. -/
theorem foldl_digits_lt (f : Nat → Bool) (n : Nat) :
    (List.range n).foldl (fun acc i => 2 * acc + (f i).toNat) 0 < 2 ^ n := by
  induction n with
  | zero => exact Nat.one_pos
  | succ n ih =>
    rw [List.range_succ, List.foldl_append, List.foldl_cons, List.foldl_nil, pow_succ]
    have := Bool.toNat_lt (f n)
    omega

/-- The decoded value as the weighted sum of the payload digits (R68). -/
theorem decoderValue_toNat (q : Digits) (R : Nat) :
    (decoderValue q R).toNat =
      ∑ i ∈ Finset.range 64, (q.getD (1 + (2 + i) * R) false).toNat * 2 ^ (63 - i) := by
  unfold decoderValue
  rw [BitVec.toNat_ofNat, Nat.mod_eq_of_lt (foldl_digits_lt (fun i => decoderLogical q R (2 + i)) 64),
    foldl_digits_eq_sum (fun i => decoderLogical q R (2 + i))]
  simp only [decoderLogical_eq]

/-- The frame bit as the four digits it looks at (R90). -/
theorem decoderFrameOk_eq_decide (q : Digits) (R : Nat) :
    decoderFrameOk q R =
      decide (q.getD 1 false = false ∧ q.getD (1 + R) false = true ∧
        q.getD (1 + 66 * R) false = true ∧ q.getD (1 + 67 * R) false = false) := by
  simp [decoderFrameOk, decoderLogical_eq, Bool.decide_and, Bool.and_assoc]

/-! Read-backs of an encoded value. -/

/-- A read-back carries the digits of `ENCODE(v, R)` behind its leading digit. -/
def carries (q : Digits) (v : Word) (R : Nat) : Prop :=
  ∀ j, j < physLen R → q[1 + j]? = (encoderSeq v R)[j]?

theorem carries_cons (d : Bool) (v : Word) (R : Nat) : carries (d :: encoderSeq v R) v R := by
  intro j _
  rw [Nat.add_comm, List.getElem?_cons_succ]

/-- Each logical digit of such a read-back is the value's own (R67). -/
theorem carries.decoderLogical {q : Digits} {v : Word} {R : Nat} (h : carries q v R) (hR : 1 ≤ R) {b : Nat}
    (hb : b < 68) : decoderLogical q R b = encoderLogical v b := by
  have hlt : b * R < (b + 1) * R := Nat.mul_lt_mul_of_pos_right (by omega) hR
  have hphys : b * R < physLen R := hlt.trans_le (Nat.mul_le_mul_right R hb)
  rw [decoderLogical_eq, List.getD_eq_getElem?_getD, h _ hphys, encoderSeq_block v hb le_rfl hlt, Option.getD_some]

/-- DECODE recovers the value (R88). -/
theorem carries.decoderValue {q : Digits} {v : Word} {R : Nat} (h : carries q v R) (hR : 1 ≤ R) :
    decoderValue q R = v := by
  refine BitVec.eq_of_getLsbD_eq fun i hi => ?_
  have hpos : 65 - i = 2 + (63 - i) := by omega
  have hbit : 63 - (63 - i) = i := by omega
  rw [decoderValue_getLsbD q R i hi, h.decoderLogical hR (by omega), hpos, encoderLogical_value v (by omega), hbit]

/-- FRAME_CHECK accepts it (R91). -/
theorem carries.decoderFrameOk {q : Digits} {v : Word} {R : Nat} (h : carries q v R) (hR : 1 ≤ R) :
    decoderFrameOk q R = true := by
  obtain ⟨hstart0, hstart1⟩ := encoderLogical_start v
  obtain ⟨hend0, hend1⟩ := encoderLogical_end v
  have hdigit : ∀ b, b < 68 → Machine.decoderLogical q R b = encoderLogical v b := fun _ => h.decoderLogical hR
  simp [Machine.decoderFrameOk, hdigit, hstart0, hstart1, hend0, hend1]

theorem length_cons_encoderSeq (d : Bool) (v : Word) (R : Nat) : (d :: encoderSeq v R).length = rbLen R := by
  rw [List.length_cons, encoderSeq_length]

/-- Settles O10: it holds, the logical digits of the read-back being those of the value. -/
theorem decodeRecoversEncoded : Obligations.DecodeRecoversEncoded := by
  unfold Obligations.DecodeRecoversEncoded
  intro v d s hR
  refine ⟨_, _, exec_encode_of v hR, ?_⟩
  rw [exec_decode_of hR (length_cons_encoderSeq d v _), (carries_cons d v _).decoderValue hR]

/-- Settles O11: it holds, the four frame digits of the read-back being those of the frame word. -/
theorem frameCheckAcceptsEncoded : Obligations.FrameCheckAcceptsEncoded := by
  unfold Obligations.FrameCheckAcceptsEncoded
  intro v d s hR
  rw [exec_frameCheck_of hR (length_cons_encoderSeq d v _), (carries_cons d v _).decoderFrameOk hR]

/-- Settles O12: it holds, the unit's fold being the weighted sum. -/
theorem decodeResult : Obligations.DecodeResult := by
  unfold Obligations.DecodeResult
  exact fun q s hR hq => ⟨_, _, exec_decode_of hR hq, rfl, rfl, decoderValue_toNat q s.params.R⟩

/-- Settles O13: it holds, the unit's four digits being those named. -/
theorem frameCheckResult : Obligations.FrameCheckResult := by
  unfold Obligations.FrameCheckResult
  rintro q s _ hR hq rfl
  rw [← decoderFrameOk_eq_decide]
  exact ⟨_, exec_frameCheck_of hR hq, rfl, rfl⟩

/-- Settles O14: it holds, neither unit looking at the frame to complete. -/
theorem badFrameStillDecodes : Obligations.BadFrameStillDecodes := by
  unfold Obligations.BadFrameStillDecodes
  refine fun q s hR hq => ⟨⟨_, exec_decode_of hR hq⟩, fun hbad => ?frame⟩
  case frame => rw [exec_frameCheck_of hR hq, decoderFrameOk_eq_decide, decide_eq_false hbad]

/-- Settles O9: it holds, the sequence read digit by digit. -/
theorem encodeResult : Obligations.EncodeResult := by
  unfold Obligations.EncodeResult
  exact fun v s hR => ⟨_, _, exec_encode_of v hR, rfl, rfl, rfl, encoderSeq_length v _, fun _ => encoderSeq_digit v⟩

end Sys2Proof.Machine
end

section
/-!
PROOF. The shared cell, the stop flag and reset (R46, R51, R114 to R116, R151): each completes in every state, and
no other instruction writes the cell or the flag.
-/

namespace Sys2Proof.Machine

/-- Settles O17: it holds, none of the three asking anything of the state. -/
theorem sharedCellResults : Obligations.SharedCellResults := by
  unfold Obligations.SharedCellResults
  refine ⟨fun _ _ => rfl, fun _ => rfl, fun _ => rfl, fun v s t h => ?readback⟩
  case readback => cases h; rfl

/-! STOP_CLK is one record update. -/

theorem State.stopClk_eq (s : State) (h : Line) :
    s.stopClk h =
      { s.useScripted opStopClk with
        wrArmed := if h = .dataOut ∧ s.stopClkStatus h = 0 then false else s.wrArmed
        wrDirty := if h = .dataOut then s.stopClkStatus h != 0 else s.wrDirty
        engRun := if h = .dataIn ∧ s.stopClkStatus h = 0 then false else s.engRun
        rdDirty := if h = .dataIn then s.stopClkStatus h != 0 else s.rdDirty
        ret := .status (s.stopClkStatus h) } := by
  rw [State.stopClk, State.stopFlags_eq]; rfl

/-! What an instruction leaves as it was. -/

/-- The cell and the stop flag are as they were. -/
def State.sameShared (s t : State) : Prop := t.cell = s.cell ∧ t.stop = s.stop

/-- Only CELL_SET, STOP_REQ and RESET write the shared cell or the stop flag (R46, R51). -/
theorem NextForm.shared {s t : State} {i : Instr} (h : NextForm s i t) :
    s.sameShared t ∨ i = .reset ∨ (∃ v, i = .cellSet v ∧ t.cell = v ∧ t.stop = s.stop) ∨
      (i = .stopReq ∧ t.cell = s.cell ∧ t.stop = true) := by
  cases h
  case reset => exact .inr (.inl rfl)
  case cellSet v => exact .inr (.inr (.inl ⟨v, rfl, rfl, rfl⟩))
  case stopReq => exact .inr (.inr (.inr ⟨rfl, rfl, rfl⟩))
  -- calls that branch
  case openLine => rw [State.openLine_eq]; exact .inl ⟨rfl, rfl⟩
  case configure => rw [State.configure_eq]; exact .inl ⟨rfl, rfl⟩
  case stopClk => rw [State.stopClk_eq]; exact .inl ⟨rfl, rfl⟩
  -- actions of the FSM that branch
  case assert => rw [State.assertMarker_eq]; exact .inl ⟨rfl, rfl⟩
  case deassert => rw [State.deassertMarker_eq]; exact .inl ⟨rfl, rfl⟩
  case arm => rw [State.armWrite_eq]; exact .inl ⟨rfl, rfl⟩
  case stopWrite => rw [State.stopWriteChannel_eq]; exact .inl ⟨rfl, rfl⟩
  case stopRead => rw [State.stopReadChannel_eq]; exact .inl ⟨rfl, rfl⟩
  case verify => rw [State.verify_eq]; exact .inl ⟨rfl, rfl⟩
  -- plain updates of `State.begin`
  all_goals exact .inl ⟨rfl, rfl⟩

/-- XFER runs a sub-state's row, so an instruction whose row is no sub-state's is the row itself. -/
theorem State.actionRow_eq_of_no_sub {s : State} {i j : Instr} (h : s.actionRow i = j) (hj : ∀ c, decodeSub c ≠ j) :
    i = j := by
  unfold State.actionRow at h
  split at h
  · exact absurd h (hj s.xs)
  · exact h

/-- The same of every instruction, XFER included. -/
theorem exec_shared {s t : State} {i : Instr} (h : exec i s = .next t) :
    s.sameShared t ∨ i = .reset ∨ (∃ v, i = .cellSet v ∧ t.cell = v ∧ t.stop = s.stop) ∨
      (i = .stopReq ∧ t.cell = s.cell ∧ t.stop = true) := by
  have hcell : ∀ v, ∀ c, decodeSub c ≠ .cellSet v := by
    intro v c
    rcases code3_cases c with rfl | rfl | rfl | rfl | rfl | rfl | rfl | rfl <;> exact Instr.noConfusion
  rcases (exec_next h).shared with hsame | hreset | ⟨v, hset, hv⟩ | ⟨hstop, hflag⟩
  · exact .inl hsame
  · exact .inr (.inl (State.actionRow_eq_of_no_sub hreset (by decide)))
  · exact .inr (.inr (.inl ⟨v, State.actionRow_eq_of_no_sub hset (hcell v), hv⟩))
  · exact .inr (.inr (.inr ⟨State.actionRow_eq_of_no_sub hstop (by decide), hflag⟩))

/-- Settles O18: it holds, by who writes the cell and the flag. -/
theorem sharedWritersOnly : Obligations.SharedWritersOnly := by
  unfold Obligations.SharedWritersOnly
  intro i s t h
  rcases exec_shared h with ⟨hcell, hstop⟩ | rfl | ⟨v, rfl, hcell, hstop⟩ | ⟨rfl, hcell, hstop⟩
  · exact ⟨fun hne => absurd hcell hne, fun hne => absurd hstop hne, fun hset _ => hstop.trans hset⟩
  · exact ⟨fun _ => .inl rfl, fun _ => .inl rfl, fun _ hne => absurd rfl hne⟩
  · exact ⟨fun _ => .inr ⟨v, rfl, hcell⟩, fun hne => absurd hstop hne, fun hset _ => hstop.trans hset⟩
  · exact ⟨fun hne => absurd hcell hne, fun _ => .inr ⟨rfl, hstop⟩, fun _ _ => hstop⟩

/-! Reset. -/

/-- In IDLE or EXITED, with no engine running and no call outstanding, a reset interrupts nothing (R151). -/
theorem State.interrupted_of_idle {s : State} (hst : s.st = stIdleCode ∨ s.st = stExitedCode)
    (he : s.engRun = false) (hb : s.busy = false) : s.interrupted = false := by
  rcases hst with hst | hst <;> simp [State.interrupted, hst, he, hb]

/-- A reset that interrupts nothing leaves clean channels (R151). -/
theorem State.afterReset_clean {s : State} (h : s.interrupted = false) :
    s.afterReset.wrDirty = false ∧ s.afterReset.rdDirty = false := by
  simp [State.afterReset, h]

/-- Settles O19: it holds, row by row of R42's table. -/
theorem resetResult : Obligations.ResetResult := by
  unfold Obligations.ResetResult
  intro s
  refine ⟨_, rfl, rfl, rfl, rfl, rfl, rfl, rfl, rfl, rfl, rfl, rfl, rfl, rfl, rfl, rfl, rfl, rfl, rfl, rfl, rfl,
    rfl, rfl, rfl, rfl, rfl, rfl, rfl, rfl, rfl, fun hst he hb => ?clean, rfl, rfl, rfl, rfl, rfl⟩
  case clean => exact State.afterReset_clean (s := s.begin) (State.interrupted_of_idle hst he hb)

end Sys2Proof.Machine
end

section
/-!
PROOF. The status and the completion of a call (R94, R120 to R122, R79), the sample clock (R121), and a call the
DRIVER does not complete (R94).
-/

namespace Sys2Proof.Machine

/-! Usable channels. -/

/-- A channel is usable with a handle and the configuration that R34 allows (R122). -/
theorem State.usable_eq_true {s : State} {l : Line} :
    s.usable l = true ↔ s.handle l ≠ none ∧ s.clockCfg l = s.params.legalCfg l := by
  rw [State.usable, Bool.and_eq_true, Option.isSome_iff_ne_none, beq_iff_eq]

/-- The marker line has no configuration, so its handle makes it usable (R31, R34). -/
theorem State.usable_marker {s : State} : s.usable .marker = true ↔ s.hMarker ≠ none := by
  rw [State.usable_eq_true]
  exact and_iff_left rfl

/-! Statuses. -/

/-- A call on a channel that is not usable fails (R122). -/
theorem State.callStatus_unusable (s : State) (op : OpId) : s.callStatus op false ≠ 0 := by
  unfold State.callStatus
  split
  case isTrue hraw => simpa using hraw
  case isFalse => exact failureStatus_ne_zero _

/-- Under DRIVER_OK a call on a usable channel succeeds (R120). -/
theorem State.driverOk_callStatus {s : State} (h : s.driverOk) (op : OpId) : s.callStatus op true = 0 := by
  rw [State.callStatus_usable, State.driverOk_rawStatus h]

/-- A failure directive gives the status it names (R79). -/
theorem State.callStatus_scripted {s : State} {op : OpId} {st : DriverStatus} (b : Bool)
    (h : s.scripted op = some st) (hst : st ≠ 0) : s.callStatus op b = st := by
  have hraw : s.rawStatus op = st := by simp [State.rawStatus, h]
  simp [State.callStatus, hraw, hst]

/-! The sample clock. -/

/-- An instruction touches neither the queue nor the sample clock's gap, which are outside the block (R17). -/
theorem NextForm.outside {s t : State} {i : Instr} (h : NextForm s i t) :
    t.queue = s.queue ∧ t.edgeGap = s.edgeGap := by
  cases h
  -- calls that branch
  case openLine => rw [State.openLine_eq]; exact ⟨rfl, rfl⟩
  case configure => rw [State.configure_eq]; exact ⟨rfl, rfl⟩
  case stopClk => rw [State.stopClk_eq]; exact ⟨rfl, rfl⟩
  -- actions of the FSM that branch
  case assert => rw [State.assertMarker_eq]; exact ⟨rfl, rfl⟩
  case deassert => rw [State.deassertMarker_eq]; exact ⟨rfl, rfl⟩
  case arm => rw [State.armWrite_eq]; exact ⟨rfl, rfl⟩
  case stopWrite => rw [State.stopWriteChannel_eq]; exact ⟨rfl, rfl⟩
  case stopRead => rw [State.stopReadChannel_eq]; exact ⟨rfl, rfl⟩
  case verify => rw [State.verify_eq]; exact ⟨rfl, rfl⟩
  -- plain updates of `State.begin`
  all_goals exact ⟨rfl, rfl⟩

/-- A step runs the instruction it fetches. -/
theorem step_of_instr {s : State} {i : Instr} (h : s.fetched = .instr i) : step s = exec i s.takeFetch := by
  rw [step, h]

/-- Once the gap has run out, a running engine gets its edge under DRIVER_COMPLETES (R121). -/
theorem step_of_clockDue {s : State} (hR : 1 ≤ s.params.R) (hq : s.queue = []) (hd : s.clockDue = true) :
    step s = exec .sampleEdge s.takeFetch := by
  apply step_of_instr
  rw [State.fetched_of hR, State.nextFetch, hq, hd]
  rfl

/-- Each turn that nothing has queued counts the gap down. -/
theorem State.takeFetch_edgeGap_succ {s : State} {n : Nat} (hq : s.queue = []) (h : s.edgeGap = n + 1) :
    s.takeFetch.edgeGap = n := by
  simp [State.nextGap, hq, h]

/-- Settles O21: it holds, clause by clause. -/
theorem callStatuses : Obligations.CallStatuses := by
  unfold Obligations.CallStatuses
  refine ⟨fun s op h => State.driverOk_callStatus h op, State.callStatus_unusable, fun s op l h => ?unusable,
    fun s op l h hh hc hok => ?usable, fun s op st b h hst => State.callStatus_scripted b h hst,
    fun s op hs hok => ?drawn, fun s op hs hc => ?completes, fun s c hc hr hd => ?returns,
    fun s op h => ⟨State.driverCompletes_completes h op, State.driverCompletes_readReturns h⟩,
    fun s hd hR he hq => ⟨fun hgap => ?due, fun n => State.takeFetch_edgeGap_succ hq⟩,
    fun i s s' h => (exec_next h).outside.2⟩
  case unusable =>
    have hu : s.usable l = false := by
      rw [← Bool.not_eq_true, State.usable_eq_true]
      rintro ⟨hhandle, hcfg⟩
      exact h.elim hhandle (absurd hcfg)
    rw [hu]
    exact State.callStatus_unusable s op
  case usable =>
    rw [State.usable_eq_true.2 ⟨by simp [hh], hc⟩]
    exact State.driverOk_callStatus hok op
  case drawn => simp [State.callStatus_usable, State.rawStatus, hs, hok]
  case completes => simp [State.completes, hs, hc]
  case returns => simp [State.readReturns, State.readCall, hc, hr, hd]
  case due =>
    exact step_of_clockDue hR hq (by simp [State.clockDue, show s.env.driverCompletes = true from hd, he, hgap])

/-! Calls the DRIVER does not complete. -/

/-- The form of an action that makes its own call is the call's completion or a wait. -/
theorem NextForm.call_completes {s t : State} {i : Instr} {op : OpId} (h : NextForm s i t)
    (hop : ownCall i = some op) : s.begin.completes op = true ∨ t = s.begin := by
  cases h
  case waits => exact .inr rfl
  -- the actions that make their own call
  case openLine hc => cases hop; exact .inl hc
  case configure hc => cases hop; exact .inl hc
  case writeImm hc => cases hop; exact .inl hc
  case writeClk hc => cases hop; exact .inl hc
  case stopClk hc => cases hop; exact .inl hc
  case assert hc => cases hop; exact .inl hc
  case deassert hc => cases hop; exact .inl hc
  case arm hc => cases hop; exact .inl hc
  case stopWrite hc => cases hop; exact .inl hc
  case stopRead hc => cases hop; exact .inl hc
  -- the actions that make none
  all_goals cases hop

/-- Settles O28: it holds, by the forms of the actions that make their own call. -/
theorem hungCallWaits : Obligations.HungCallWaits := by
  unfold Obligations.HungCallWaits
  exact fun i s s' op hop h => (exec_next h).call_completes hop

end Sys2Proof.Machine
end

section
/-!
PROOF. The six calls (R123 to R128): what each instruction does once the DRIVER completes its call, and what it
refuses.
-/

namespace Sys2Proof.Machine

/-! Completion: the instruction is its call on the state with its pulses ended. -/

theorem exec_openLine_of {s : State} (l : Line) (hc : s.begin.completes opOpenLine = true) :
    exec (.openLine l) s = .next (s.begin.openLine l) :=
  congrArg Host.Outcome.next (State.whenCompletes_of_completes _ hc)

theorem State.configureRefusal_eq_none {s : State} {h : Line} {c : ClockCfg} (hR : 1 ≤ s.params.R)
    (hcfg : s.params.legalCfg h = some c) : s.configureRefusal h c = none := by
  have hh : h ≠ .marker := by
    rintro rfl
    cases hcfg
  rw [State.configureRefusal, if_neg hh, if_neg (by omega), if_pos hcfg]

theorem exec_configure_of {s : State} {h : Line} {c : ClockCfg} (hR : 1 ≤ s.params.R)
    (hcfg : s.params.legalCfg h = some c) (hc : s.begin.completes opConfigure = true) :
    exec (.configure h c) s = .next (s.begin.configure h c) := by
  rw [exec, execConfigure, State.configureRefusal_eq_none hR hcfg]
  exact congrArg Host.Outcome.next (State.whenCompletes_of_completes _ hc)

theorem exec_writeImm_of {s : State} (b : Bool) (hc : s.begin.completes opWriteImm = true) :
    exec (.writeImm .marker b) s = .next (s.begin.writeImm b) :=
  congrArg Host.Outcome.next (State.whenCompletes_of_completes _ hc)

theorem exec_writeClk_of {s : State} {bits : Digits} (hR : 1 ≤ s.params.R) (hl : bits.length = physLen s.params.R)
    (hc : s.begin.completes opWriteClk = true) :
    exec (.writeClk .dataOut bits) s = .next (s.begin.writeClk bits) := by
  have hnone : s.writeClkRefusal .dataOut bits = none := by
    rw [State.writeClkRefusal, if_neg (by simp), if_neg (by omega), if_pos hl]
  rw [exec, execWriteClk, hnone]
  exact congrArg Host.Outcome.next (State.whenCompletes_of_completes _ hc)

theorem exec_readClk_of {s : State} (hR : 1 ≤ s.params.R) :
    exec (.readClk .dataIn (rbLen s.params.R)) s = s.begin.readClk := by
  have hnone : s.readClkRefusal .dataIn (rbLen s.params.R) = none := by
    rw [State.readClkRefusal, if_neg (by simp), if_neg (by omega), if_pos rfl]
  rw [exec, execReadClk, hnone]

theorem exec_stopClk_of {s : State} {h : Line} (hh : h ≠ .marker) (hc : s.begin.completes opStopClk = true) :
    exec (.stopClk h) s = .next (s.begin.stopClk h) := by
  rw [exec, execStopClk, stopClkRefusal, if_neg hh]
  exact congrArg Host.Outcome.next (State.whenCompletes_of_completes _ hc)

/-! Refusals. -/

theorem exec_configure_badConfiguration {s : State} {h : Line} {c : ClockCfg} (hR : 1 ≤ s.params.R)
    (hh : h ≠ .marker) (hcfg : s.params.legalCfg h ≠ some c) :
    exec (.configure h c) s = .refused .badConfiguration := by
  rw [exec, execConfigure, State.configureRefusal, if_neg hh, if_neg (by omega), if_neg hcfg]

theorem exec_writeImm_badHandle {s : State} {h : Line} (b : Bool) (hh : h ≠ .marker) :
    exec (.writeImm h b) s = .refused .badHandle := by
  rw [exec, execWriteImm, writeImmRefusal, if_neg hh]

theorem exec_writeClk_badHandle {s : State} {h : Line} (bits : Digits) (hh : h ≠ .dataOut) :
    exec (.writeClk h bits) s = .refused .badHandle := by
  rw [exec, execWriteClk, State.writeClkRefusal, if_pos hh]

theorem exec_writeClk_badLength {s : State} {bits : Digits} (hR : 1 ≤ s.params.R)
    (hl : bits.length ≠ physLen s.params.R) :
    exec (.writeClk .dataOut bits) s = .refused .badSequenceLength := by
  rw [exec, execWriteClk, State.writeClkRefusal, if_neg (by simp), if_neg (by omega), if_neg hl]

theorem exec_readClk_badHandle {s : State} {h : Line} (n : Nat) (hh : h ≠ .dataIn) :
    exec (.readClk h n) s = .refused .badHandle := by
  rw [exec, execReadClk, State.readClkRefusal, if_pos hh]

theorem exec_readClk_badCount {s : State} {n : Nat} (hR : 1 ≤ s.params.R) (hn : n ≠ rbLen s.params.R) :
    exec (.readClk .dataIn n) s = .refused .badSampleCount := by
  rw [exec, execReadClk, State.readClkRefusal, if_neg (by simp), if_neg (by omega), if_neg hn]

/-! OPEN_LINE and CONFIGURE. -/

/-- Settles O22: it holds, line by line. -/
theorem openLineResult : Obligations.OpenLineResult := by
  unfold Obligations.OpenLineResult
  intro l s hc
  rw [exec_openLine_of l hc, State.openLine_eq]
  cases l <;> simp [Params.spec] <;> rfl

/-- Settles O23: it holds; the refusals are the checks of R34 in their order. -/
theorem configureResult : Obligations.ConfigureResult := by
  unfold Obligations.ConfigureResult
  refine ⟨fun h c s hR hcfg hc => ?completes, fun h c s => exec_configure_badConfiguration, fun _ _ => rfl,
    fun h c s => exec_configure_zero c⟩
  case completes => rw [exec_configure_of hR hcfg hc, State.configure_eq]; rfl

/-! WRITE_IMM and WRITE_CLK. -/

/-- A WRITE_IMM that succeeds drives its level; one that fails leaves it or the old one (R125). -/
theorem State.markerAfter_cases (s : State) (b : Bool) (st : DriverStatus) :
    (st = 0 → s.markerAfter b st = b) ∧ (s.markerAfter b st = b ∨ s.markerAfter b st = s.marker) := by
  unfold State.markerAfter
  split
  · exact ⟨fun _ => rfl, .inl rfl⟩
  · next hst =>
    split
    · exact ⟨fun _ => rfl, .inl rfl⟩
    · exact ⟨fun h => absurd h hst, .inr rfl⟩

/-- A WRITE_CLK that succeeds on a clean channel arms the write (R126). -/
theorem State.armedAfter_good {s : State} {st : DriverStatus} (hst : st = 0) (hd : s.wrDirty = false) :
    s.armedAfter st = true := by
  simp [State.armedAfter, hst, hd]

/-- Settles O24: it holds, by the level a WRITE_IMM leaves. -/
theorem writeImmResult : Obligations.WriteImmResult := by
  unfold Obligations.WriteImmResult
  refine ⟨fun b s hc => ?completes, fun h b s => exec_writeImm_badHandle b⟩
  case completes => exact ⟨_, exec_writeImm_of b hc, s.begin.markerAfter_cases b _⟩

/-- Settles O25: it holds, by when a WRITE_CLK arms. -/
theorem writeClkResult : Obligations.WriteClkResult := by
  unfold Obligations.WriteClkResult
  refine ⟨fun bits s hR hl hc => ?completes, fun h bits s => exec_writeClk_badHandle bits,
    fun bits s => exec_writeClk_badLength⟩
  case completes => exact ⟨_, exec_writeClk_of hR hl hc, fun hst hd => State.armedAfter_good hst hd⟩

/-! READ_CLK. -/

theorem State.readCall_of_some {s : State} {c : ReadCall} (h : s.rdCall = some c) : s.readCall = c := by
  simp [State.readCall, h]

/-- A good read on a clean channel leaves the receive buffer as the edges wrote it (R127). -/
theorem State.rxAfter_good {s : State} (hst : s.readCall.status = 0) (hd : s.rdDirty = false) :
    s.rxAfter = s.rx := by
  simp [State.rxAfter, hst, hd]

/-- A failed read, or one on a dirty channel, leaves every digit drawn anew (R127, R132). -/
theorem State.rxAfter_drawn {s : State} (h : s.readCall.status ≠ 0 ∨ s.rdDirty = true) :
    ∃ q : Digits, q.length = rbLen s.params.R ∧ s.rxAfter = q.map some := by
  refine ⟨(List.range (rbLen s.params.R)).map fun j => Config.freeRx s.tick j, by simp, ?_⟩
  rw [State.rxAfter, if_pos h, List.map_map]
  rfl

theorem State.readClk_issue {s : State} (h : s.rdCall = none) : s.readClk = .next s.readClkIssue := by
  rw [State.readClk, h]; rfl

theorem State.readClk_waits {s : State} (hc : s.rdCall ≠ none) (h : s.engRun = true ∨ s.readReturns = false) :
    s.readClk = .next s := by
  have hsome : s.rdCall.isNone = false := by simpa [Option.isNone_eq_false_iff, Option.isSome_iff_ne_none] using hc
  rcases h with h | h <;> simp [State.readClk, hsome, h]

theorem State.readClk_completes {s : State} (hc : s.rdCall ≠ none) (he : s.engRun = false)
    (hr : s.readReturns = true) : s.readClk = s.readClkComplete := by
  have hsome : s.rdCall.isNone = false := by simpa [Option.isNone_eq_false_iff, Option.isSome_iff_ne_none] using hc
  simp [State.readClk, hsome, he, hr]

/-- Settles O26: it holds, by the issue, the wait and the completion of the call. -/
theorem readClkResult : Obligations.ReadClkResult := by
  unfold Obligations.ReadClkResult
  refine ⟨fun s hR hc => ?issue, fun s c hR hc he hr => ⟨fun q hst hd hq => ?good, fun hbad => ?drawn⟩,
    fun s c hR hc hw => ?waits, fun h n s => exec_readClk_badHandle n, fun n s => exec_readClk_badCount⟩
  case issue => rw [exec_readClk_of hR, State.readClk_issue (s := s.begin) hc]; rfl
  case good =>
    have hcall : s.begin.readCall = c := State.readCall_of_some hc
    have hrx : s.begin.rxAfter = q.map some :=
      (State.rxAfter_good (s := s.begin) (by rw [hcall, hst]) hd).trans hq
    rw [exec_readClk_of hR, State.readClk_completes (s := s.begin) (by simp [hc]) he hr,
      State.readClkComplete_of hrx, hcall, hst, ← hq]
    rfl
  case drawn =>
    have hcall : s.begin.readCall = c := State.readCall_of_some hc
    obtain ⟨q, hlen, hrx⟩ := State.rxAfter_drawn (s := s.begin) (by rwa [hcall])
    refine ⟨q, hlen, ?_⟩
    rw [exec_readClk_of hR, State.readClk_completes (s := s.begin) (by simp [hc]) he hr,
      State.readClkComplete_of hrx, hcall]
  case waits => rw [exec_readClk_of hR, State.readClk_waits (s := s.begin) (by simp [hc]) hw]

/-! STOP_CLK. -/

/-- The test of a status, as a decision. -/
theorem status_bne_zero (st : DriverStatus) : (st != 0) = decide (st ≠ 0) := by
  by_cases h : st = 0 <;> simp [h]

/-- Settles O27: it holds, channel by channel. -/
theorem stopClkResult : Obligations.StopClkResult := by
  unfold Obligations.StopClkResult
  refine ⟨fun s hc => ?dataOut, fun s hc => ?dataIn, fun _ => rfl⟩
  case dataOut => rw [exec_stopClk_of (by decide) hc, State.stopClk_eq]; simp [status_bne_zero]
  case dataIn => rw [exec_stopClk_of (by decide) hc, State.stopClk_eq]; simp [status_bne_zero]

/-! Samples. -/

/-- After edge 0, or without a `PRE`, the sample is the line's or a draw, inverted where a `FLIP` says so (R79,
R130). -/
theorem State.sampleDin_of_no_preset {s : State} (h : 1 ≤ s.k ∨ s.env.preNow = none) :
    s.sampleDin = ((if s.env.loopback then s.dout else Config.freeDin s.tick) ^^ s.env.flipNow.contains s.k) := by
  have hpre : s.presetSample = none := by
    unfold State.presetSample
    split
    · next hk => exact h.resolve_left (by omega)
    · rfl
  rw [State.sampleDin, hpre, Option.getD_none]

/-- Sample 0 after a `PRE d` is `d`, inverted where `FLIP 0` says so (R79). -/
theorem State.sampleDin_of_preset {s : State} {d : Bool} (hk : s.k = 0) (h : s.env.preNow = some d) :
    s.sampleDin = (d ^^ s.env.flipNow.contains 0) := by
  rw [State.sampleDin, State.presetSample, if_pos hk, h, hk, Option.getD_some]

/-- A sample is inverted exactly at the indices the `FLIP` directives name. -/
theorem flipped_sample {x b : Bool} {l : List Nat} {k : Nat} (h : x = (b ^^ l.contains k)) :
    (k ∉ l → x = b) ∧ (k ∈ l → x = !b) := by
  subst h
  exact ⟨fun hk => by simp [hk], fun hk => by simp [hk]⟩

/-- Settles O30: it holds, by where the sample comes from and whether it is inverted. -/
theorem loopbackSample : Obligations.LoopbackSample := by
  unfold Obligations.LoopbackSample
  refine ⟨fun s hl h => flipped_sample ?loopback, fun s hl h => flipped_sample ?drawn,
    fun s d hk h => flipped_sample (State.sampleDin_of_preset hk h)⟩
  case loopback => rw [State.sampleDin_of_no_preset h, if_pos hl]
  case drawn => rw [State.sampleDin_of_no_preset h, if_neg (by simp [hl])]

end Sys2Proof.Machine
end

section
/-!
PROOF. The actions of the FSM (R97 to R104): what each instruction does with legal codes once the DRIVER completes
its call, and that XFER does what its sub-state does (R93).
-/

namespace Sys2Proof.Machine

/-! Completion: the instruction is its action on the state with its pulses ended. -/

theorem exec_stXfer (s : State) : exec .stXfer s = exec (decodeSub s.xs) s := (exec_actionRow s .stXfer).symm

/-- XFER does what the row of the code in `xs` does. -/
theorem exec_stXfer_of {s : State} {c : Code3} {r : Result} (h : exec (decodeSub c) s = r) (hxs : s.xs = c) :
    exec .stXfer s = r := by
  rw [exec_stXfer, hxs, h]

theorem exec_stMarkerAsserted_of {s : State} (hl : s.codesLegal = true)
    (hc : s.begin.completes opWriteImm = true) : exec .stMarkerAsserted s = .next s.begin.assertMarker := by
  rw [exec, execStMarkerAsserted, State.fsmAction_of _ hl, State.whenCompletes_of_completes _ hc]

theorem exec_stMarkerDeasserted_of {s : State} (hl : s.codesLegal = true)
    (hc : s.begin.completes opWriteImm = true) : exec .stMarkerDeasserted s = .next s.begin.deassertMarker := by
  rw [exec, execStMarkerDeasserted, State.fsmAction_of _ hl, State.whenCompletes_of_completes _ hc]

/-- ARM with a captured value and a legal R makes its call. -/
theorem exec_xsArm_of_cap {s : State} {v : Word} (hl : s.codesLegal = true) (hv : s.cap = some v)
    (hR : 1 ≤ s.params.R) :
    exec .xsArm s = .next (s.begin.whenCompletes opWriteClk fun t => t.armWrite v) := by
  rw [exec, execXsArm, State.fsmAction_of _ hl]
  simp only [State.xferArm, State.begin_cap, State.begin_params, hv, encoderRefusal_eq_none.2 hR]

theorem exec_xsArm_of {s : State} {v : Word} (hl : s.codesLegal = true) (hv : s.cap = some v)
    (hR : 1 ≤ s.params.R) (hc : s.begin.completes opWriteClk = true) :
    exec .xsArm s = .next (s.begin.armWrite v) := by
  rw [exec_xsArm_of_cap hl hv hR, State.whenCompletes_of_completes _ hc]

theorem exec_xsStart_of {s : State} (hl : s.codesLegal = true) (hR : 1 ≤ s.params.R) :
    exec .xsStart s = .next { s.begin.readClkIssue with busy := true, xs := xsWaitCode } := by
  rw [exec, execXsStart, State.fsmAction_of _ hl]
  exact State.withRepeat_of _ hR

theorem exec_xsWait_of {s : State} {q : Digits} (hl : s.codesLegal = true) (hR : 1 ≤ s.params.R)
    (he : s.engRun = false) (hr : s.begin.readReturns = true) (hq : s.begin.rxAfter = q.map some) :
    exec .xsWait s = .next (s.begin.waitDone q) := by
  rw [exec, execXsWait, State.fsmAction_of _ hl]
  exact State.xferWait_of he hr hR hq

theorem exec_xsWait_waits {s : State} (hl : s.codesLegal = true)
    (hw : s.engRun = true ∨ s.begin.readReturns = false) : exec .xsWait s = .next s.begin := by
  rw [exec, execXsWait, State.fsmAction_of _ hl]
  exact State.xferWait_waits hw

theorem exec_xsStopW_of {s : State} (hl : s.codesLegal = true) (hc : s.begin.completes opStopClk = true) :
    exec .xsStopW s = .next s.begin.stopWriteChannel := by
  rw [exec, execXsStopW, State.fsmAction_of _ hl, State.whenCompletes_of_completes _ hc]

theorem exec_xsStopR_of {s : State} (hl : s.codesLegal = true) (hc : s.begin.completes opStopClk = true) :
    exec .xsStopR s = .next s.begin.stopReadChannel := by
  rw [exec, execXsStopR, State.fsmAction_of _ hl, State.whenCompletes_of_completes _ hc]

theorem exec_stVerified_of {s : State} {v : Word} {q : Digits} {t0 : Time} (hl : s.codesLegal = true)
    (hv : s.cap = some v) (hq : s.rx = q.map some) (ht : s.tStart = some t0) (hR : 1 ≤ s.params.R)
    (hlen : q.length = rbLen s.params.R) : exec .stVerified s = .next (s.begin.verify v q t0) := by
  rw [exec, execStVerified, State.fsmAction_of _ hl]
  simp only [State.verified, State.begin_cap, State.begin_rx, State.begin_tStart, State.begin_params, hv, hq, ht,
    allWritten_map_some, decoderRefusal_eq_none.2 ⟨hR, hlen⟩]

theorem exec_stExited_of {s : State} (hl : s.codesLegal = true) : exec .stExited s = .next s.begin :=
  State.fsmAction_of _ hl

/-! The results. -/

/-- Settles O39: it holds, XFER being dispatched on `xs`. -/
theorem xferRunsSubState : Obligations.XferRunsSubState := by
  unfold Obligations.XferRunsSubState
  exact exec_stXfer

/-- Settles O32: it holds, by the level a WRITE_IMM leaves. -/
theorem markerAssertedResult : Obligations.MarkerAssertedResult := by
  unfold Obligations.MarkerAssertedResult
  rintro s st hl hc rfl
  refine ⟨_, Config.freeTime s.begin.tick, ?_, s.begin.markerAfter_cases true _⟩
  rw [exec_stMarkerAsserted_of hl hc, State.assertMarker_eq]
  rfl

/-- Settles O33: it holds, by the level a WRITE_IMM leaves. -/
theorem markerDeassertedResult : Obligations.MarkerDeassertedResult := by
  unfold Obligations.MarkerDeassertedResult
  rintro s st hl hc rfl
  refine ⟨_, ?_, s.begin.markerAfter_cases false _⟩
  rw [exec_stMarkerDeasserted_of hl hc, State.deassertMarker_eq]
  rfl

/-- Settles O34: it holds, by when a WRITE_CLK arms. -/
theorem xferArmResult : Obligations.XferArmResult := by
  unfold Obligations.XferArmResult
  rintro s v st hl hv hR hc rfl
  have harm := exec_xsArm_of hl hv hR hc
  exact ⟨_, _, harm, exec_stXfer_of harm, State.armWrite_eq _ _, fun hst hd => State.armedAfter_good hst hd⟩

/-- Settles O35: it holds, the action being the issue of the read. -/
theorem xferStartResult : Obligations.XferStartResult := by
  unfold Obligations.XferStartResult
  intro s hl hR
  have hstart := exec_xsStart_of hl hR
  exact ⟨_, hstart, exec_stXfer_of hstart, rfl⟩

/-- Settles O36: it holds, by the good completion, the failed one and the wait. -/
theorem xferWaitResult : Obligations.XferWaitResult := by
  unfold Obligations.XferWaitResult
  refine ⟨fun s c hl hR hcall he hr => ?completes, fun s hl hw => exec_xsWait_waits hl hw⟩
  case completes =>
    replace hcall : s.begin.readCall = c := State.readCall_of_some hcall
    refine ⟨fun q hst hd hq => ?good, fun hbad => ?drawn⟩
    case good =>
      have hrx := State.rxAfter_good (s := s.begin) (by rw [hcall, hst]) hd
      have hwait := exec_xsWait_of hl hR he hr (hrx.trans hq)
      refine ⟨_, hwait, exec_stXfer_of hwait, ?_⟩
      simp only [State.waitDone, hcall, hst, if_true, ← hq]
      rfl
    case drawn =>
      obtain ⟨q, hlen, hrx⟩ := State.rxAfter_drawn (s := s.begin) (by rwa [hcall])
      have hwait := exec_xsWait_of hl hR he hr hrx
      refine ⟨q, _, hlen, hwait, exec_stXfer_of hwait, ?_⟩
      simp only [State.waitDone, hcall]
      rfl

/-- Settles O37: it holds, the action being one STOP_CLK on the write channel. -/
theorem xferStopWResult : Obligations.XferStopWResult := by
  unfold Obligations.XferStopWResult
  rintro s st hl hc rfl
  have hstop := exec_xsStopW_of hl hc
  refine ⟨_, hstop, exec_stXfer_of hstop, ?_⟩
  rw [State.stopWriteChannel_eq, status_bne_zero]
  rfl

/-- Settles O38: it holds, the action being one STOP_CLK on the read channel. -/
theorem xferStopRResult : Obligations.XferStopRResult := by
  unfold Obligations.XferStopRResult
  rintro s st hl hc rfl
  have hstop := exec_xsStopR_of hl hc
  refine ⟨_, hstop, exec_stXfer_of hstop, ?_⟩
  rw [State.stopReadChannel_eq, status_bne_zero]
  rfl

/-- Settles O40: it holds, every register the action reads being written. -/
theorem verifiedResult : Obligations.VerifiedResult := by
  unfold Obligations.VerifiedResult
  intro s v q t0 hl hv hq ht hR hlen
  refine ⟨Config.freeLatency s.begin.tick t0, ?_⟩
  rw [exec_stVerified_of hl hv hq ht hR hlen, State.verify_eq]
  rfl

/-! Faults. -/

/-- A buffer with an unwritten digit cannot be read (R21). -/
theorem allWritten_eq_none {l : List (Option Bool)} {j : Nat} (h : l[j]? = some none) : allWritten l = none := by
  cases hq : allWritten l with
  | none => rfl
  | some q =>
    rw [allWritten_eq_some.1 hq, List.getElem?_map, Option.map_eq_some_iff] at h
    obtain ⟨d, -, hd⟩ := h
    cases hd

/-- ARM and VERIFIED read the captured value first. -/
theorem exec_fault_of_cap {s : State} (hl : s.codesLegal = true) (hv : s.cap = none) :
    exec .xsArm s = .fault (.unwritten .cap) ∧ exec .stVerified s = .fault (.unwritten .cap) := by
  rw [exec, exec, execXsArm, execStVerified, State.fsmAction_of _ hl, State.fsmAction_of _ hl]
  simp only [State.xferArm, State.verified, State.begin_cap, hv, and_self]

/-- VERIFIED reads every digit of the read-back. -/
theorem exec_stVerified_fault_of_rx {s : State} {v : Word} {j : Nat} (hl : s.codesLegal = true)
    (hv : s.cap = some v) (hj : s.rx[j]? = some none) : exec .stVerified s = .fault (.unwritten .rx) := by
  rw [exec, execStVerified, State.fsmAction_of _ hl]
  simp only [State.verified, State.begin_cap, State.begin_rx, hv, allWritten_eq_none hj]

/-- VERIFIED reads the start time. -/
theorem exec_stVerified_fault_of_tStart {s : State} {v : Word} {q : Digits} (hl : s.codesLegal = true)
    (hv : s.cap = some v) (hq : s.rx = q.map some) (ht : s.tStart = none) :
    exec .stVerified s = .fault (.unwritten .tStart) := by
  rw [exec, execStVerified, State.fsmAction_of _ hl]
  simp only [State.verified, State.begin_cap, State.begin_rx, State.begin_tStart, hv, hq, ht, allWritten_map_some]

/-- A completion reads every digit of the receive buffer. -/
theorem State.readClkComplete_fault {s : State} {j : Nat} (hst : s.readCall.status = 0) (hd : s.rdDirty = false)
    (hj : s.rx[j]? = some none) : s.readClkComplete = .fault (.unwritten .rx) := by
  rw [State.readClkComplete, State.rxAfter_good hst hd, allWritten_eq_none hj]

/-- WAIT faults where the completion does. -/
theorem State.xferWait_fault {s : State} {e : Fault} (hR : 1 ≤ s.params.R) (he : s.engRun = false)
    (hr : s.readReturns = true) (h : s.readClkComplete = .fault e) : s.xferWait = .fault e := by
  simp [State.xferWait, State.withRepeat_of _ hR, he, hr, h]

/-- An edge of a running engine is the edge's own work where R is legal (R129). -/
theorem exec_sampleEdge_of {s : State} (he : s.engRun = true) (hR : 1 ≤ s.params.R) :
    exec .sampleEdge s = s.begin.runEdge := by
  rw [exec, execSampleEdge, State.sampleEdge, if_neg (by simp [he])]
  exact State.withRepeat_of _ hR

/-- An edge outside the receive buffer or after the last (R12). -/
theorem State.runEdge_outside {s : State} (h : physLen s.params.R < s.k ∨ s.rx.length ≤ s.k) :
    s.runEdge = .fault .indexOutOfRange := if_pos h

/-- An edge in range drives the level that `driveLevel` gives. -/
theorem State.runEdge_of_ok {s : State} {d : Bool} (hk : s.k ≤ physLen s.params.R) (hl : s.k < s.rx.length)
    (hd : s.driveLevel = .ok d) : s.runEdge = .next (s.edgeTo d) := by
  rw [State.runEdge, if_neg (by omega), hd]

/-- An edge in range faults where `driveLevel` does. -/
theorem State.runEdge_of_error {s : State} {e : Fault} (hk : s.k ≤ physLen s.params.R) (hl : s.k < s.rx.length)
    (he : s.driveLevel = .error e) : s.runEdge = .fault e := by
  rw [State.runEdge, if_neg (by omega), he]

/-- An armed edge reads the transmit buffer. -/
theorem State.driveLevel_unwritten {s : State} (ha : s.wrArmed = true) (hlate : s.lateWrite = false)
    (hk : s.k < physLen s.params.R) (htx : s.tx = none) : s.driveLevel = .error (.unwritten .tx) := by
  rw [State.driveLevel, if_pos ⟨ha, hlate, hk⟩, htx]

/-- Settles O48: it holds, register by register. -/
theorem unwrittenReadsFault : Obligations.UnwrittenReadsFault := by
  unfold Obligations.UnwrittenReadsFault
  refine ⟨fun s => exec_fault_of_cap, fun s v j => exec_stVerified_fault_of_rx,
    fun s v q => exec_stVerified_fault_of_tStart, fun s c j hR hc hst hd he hr hj => ?completion,
    fun s he ha hlate htx hk hl => ?armed, fun s hR he hk => ?outside⟩
  case completion =>
    have hcall : s.begin.readCall.status = 0 := by rw [State.readCall_of_some (s := s.begin) hc, hst]
    have hfault := State.readClkComplete_fault (s := s.begin) hcall hd hj
    refine ⟨?_, fun hl => ?_⟩
    · rw [exec_readClk_of hR, State.readClk_completes (s := s.begin) (by simp [hc]) he hr, hfault]
    · rw [exec, execXsWait, State.fsmAction_of _ hl]
      exact State.xferWait_fault hR he hr hfault
  case armed =>
    rw [exec_sampleEdge_of he (by omega)]
    exact State.runEdge_of_error (s := s.begin) hk.le hl (State.driveLevel_unwritten ha hlate hk htx)
  case outside => rw [exec_sampleEdge_of he hR, State.runEdge_outside (s := s.begin) hk]

end Sys2Proof.Machine
end

section
/-!
PROOF. What a step fetches (R55, R93, R152): the head of the queue and the instruction each turn stands for.
-/

namespace Sys2Proof.Machine

theorem step_of_idle {s : State} (h : s.fetched = .idle) : step s = .next s.takeFetch.begin := by
  rw [step, h]

theorem step_of_refused {s : State} {e : Refusal} (h : s.fetched = .refused e) : step s = .refused e := by
  rw [step, h]

/-- What the outside world has queued comes first. -/
theorem State.fetched_of_queue {s : State} {f : Fetch} {q : List Fetch} (hR : 1 ≤ s.params.R)
    (hq : s.queue = f :: q) : s.fetched = s.fetchInstr f := by
  rw [State.fetched_of hR, State.nextFetch, hq]

/-- A queued fetch that gives an instruction runs it. -/
theorem step_of_queue {s : State} {f : Fetch} {q : List Fetch} {i : Instr} (hR : 1 ≤ s.params.R)
    (hq : s.queue = f :: q) (hf : s.fetchInstr f = .instr i) : step s = exec i s.takeFetch :=
  step_of_instr ((State.fetched_of_queue hR hq).trans hf)

/-- A queued fetch that the decoder refuses is refused. -/
theorem step_of_queue_refused {s : State} {f : Fetch} {q : List Fetch} {e : Refusal} (hR : 1 ≤ s.params.R)
    (hq : s.queue = f :: q) (hf : s.fetchInstr f = .refused e) : step s = .refused e :=
  step_of_refused ((State.fetched_of_queue hR hq).trans hf)

/-- With legal parameters, a turn of an agent that has no step now ends the pulses. -/
theorem step_of_queue_idle {s : State} {f : Fetch} {q : List Fetch} (hR : 1 ≤ s.params.R)
    (hq : s.queue = f :: q) (hf : s.fetchInstr f = .idle) : step s = .next s.takeFetch.begin :=
  step_of_idle ((State.fetched_of_queue hR hq).trans hf)

/-- Boot's turn makes the call its phase stands for (R152). -/
theorem State.turnInstr_boot {s : State} {i : Instr} (h : s.bootCall = some i) : s.turnInstr .boot = .instr i := by
  rw [State.turnInstr, h]

/-- Once boot has released it, the FSM's turn runs the code in `st` (R93). -/
theorem State.turnInstr_fsm {s : State} (h : s.boot = .released) : s.turnInstr .fsm = .instr (decodeState s.st) := by
  rw [State.turnInstr, if_pos h]
  rfl

/-- Before, it has no step (R152). -/
theorem State.turnInstr_fsm_waits {s : State} (h : s.boot ≠ .released) : s.turnInstr .fsm = .idle := by
  rw [State.turnInstr, if_neg h]

theorem State.takeFetch_of_queue {s : State} {f : Fetch} {q : List Fetch} (hq : s.queue = f :: q) :
    s.takeFetch = { s with queue := q } := by
  simp [State.takeFetch, hq]

/-- Boot's turn, phase by phase. -/
theorem step_boot_turn {s : State} {q : List Fetch} {i : Instr} (hR : 1 ≤ s.params.R)
    (hq : s.queue = .turn .boot :: q) (h : s.bootCall = some i) : step s = exec i s.takeFetch :=
  step_of_queue hR hq (State.turnInstr_boot h)

/-- Settles O49: it holds, each turn by the instruction it fetches. -/
theorem stepRunsFetched : Obligations.StepRunsFetched := by
  unfold Obligations.StepRunsFetched
  refine ⟨fun s i => step_of_instr, fun s => step_of_idle, fun s r => step_of_refused,
    fun s f q => State.takeFetch_of_queue, fun s q v hR hq => step_of_queue hR hq rfl,
    fun s q hR => ⟨fun hq => step_of_queue hR hq rfl, fun hq => step_of_queue hR hq rfl,
      fun hq => step_of_queue hR hq rfl⟩,
    fun s q hR hq => ?boot, fun s q hR hq hb => step_of_queue hR hq (State.turnInstr_fsm hb),
    fun s hq hd => ?free, fun s q w i hR hq hw => ?stimulus, fun s q w e hR hq hw => ?refusedStimulus,
    fun s q w hR hq => ⟨fun i hw => ?word, fun e hw => ?refusedWord⟩, fun s nbits w i hR hw => ?table⟩
  case boot =>
    exact ⟨fun hb => step_boot_turn hR hq (by rw [State.bootCall, hb]),
      fun hb => step_boot_turn hR hq (by rw [State.bootCall, hb]),
      fun hb => step_boot_turn hR hq (by rw [State.bootCall, hb]),
      fun hb => step_boot_turn hR hq (by rw [State.bootCall, hb]),
      fun hb => step_boot_turn hR hq (by rw [State.bootCall, hb]),
      fun hb => step_of_queue_idle hR hq (by rw [State.fetchInstr, State.turnInstr, State.bootCall, hb])⟩
  case free => rw [State.nextFetch, hq, hd]; rfl
  case stimulus => exact step_of_queue hR hq (by rw [State.fetchInstr, hw]; rfl)
  case refusedStimulus => exact step_of_queue_refused hR hq (by rw [State.fetchInstr, hw]; rfl)
  case word => exact step_of_queue hR hq (by rw [State.fetchInstr, hw]; rfl)
  case refusedWord => exact step_of_queue_refused hR hq (by rw [State.fetchInstr, hw]; rfl)
  case table =>
    have hstep : step (s.withFetchWord nbits w) = exec i (s.withFetchWord nbits w).takeFetch :=
      step_of_queue hR rfl (by rw [State.fetchInstr, hw]; rfl)
    exact hstep

end Sys2Proof.Machine
end

section
/-!
PROOF. Legal states are kept (R22, R23, R25 to R27, R75) and what an edge does in one (R129): each form of next state
by what it does to the buffers, the index and the transfer's flags.
-/

namespace Sys2Proof.Machine

theorem LegalState.codesLegal {s : State} (hs : LegalState s) : s.codesLegal = true :=
  State.codesLegal_eq_true.2 ⟨hs.st_legal, hs.xs_legal⟩

/-! What keeps a legal state legal, besides legal codes. -/

/-- The buffers keep their digits or their lengths, the index stays, and no flag is set. -/
theorem LegalState.of_unset {s t : State} (hs : LegalState s) (hc : t.codesLegal = true)
    (hp : t.params = s.params) (htx : t.tx = s.tx) (hrx : t.rx.length = s.rx.length) (hk : t.k = s.k)
    (he : t.engRun = true → s.engRun = true) (ha : t.wrArmed = true → s.wrArmed = true) : LegalState t where
  st_legal := (State.codesLegal_eq_true.1 hc).1
  xs_legal := (State.codesLegal_eq_true.1 hc).2
  tx_length := by rw [htx, hp]; exact hs.tx_length
  rx_length := by rw [hrx, hp]; exact hs.rx_length
  k_range := by rw [hk, hp]; exact hs.k_range
  running_k h := by rw [hk, hp]; exact hs.running_k (he h)
  armed_tx h := by rw [htx]; exact hs.armed_tx (ha h)

/-- A write loads the transmit buffer with a sequence of its length. -/
theorem LegalState.of_write {s t : State} {bits : Digits} (hs : LegalState s) (hc : t.codesLegal = true)
    (hp : t.params = s.params) (htx : t.tx = some bits) (hl : bits.length = physLen s.params.R) (hrx : t.rx = s.rx)
    (hk : t.k = s.k) (he : t.engRun = s.engRun) : LegalState t where
  st_legal := (State.codesLegal_eq_true.1 hc).1
  xs_legal := (State.codesLegal_eq_true.1 hc).2
  tx_length u hu := by
    obtain rfl : bits = u := Option.some.inj (htx.symm.trans hu)
    rw [hp, hl]
  rx_length := by rw [hrx, hp]; exact hs.rx_length
  k_range := by rw [hk, hp]; exact hs.k_range
  running_k h := by rw [hk, hp]; exact hs.running_k (he ▸ h)
  armed_tx _ := by simp [htx]

/-- The issue of a read sets the index to 0. -/
theorem LegalState.of_issue {s t : State} (hs : LegalState s) (hc : t.codesLegal = true)
    (hp : t.params = s.params) (htx : t.tx = s.tx) (hrx : t.rx = s.rx) (hk : t.k = 0)
    (ha : t.wrArmed = s.wrArmed) : LegalState t where
  st_legal := (State.codesLegal_eq_true.1 hc).1
  xs_legal := (State.codesLegal_eq_true.1 hc).2
  tx_length := by rw [htx, hp]; exact hs.tx_length
  rx_length := by rw [hrx, hp]; exact hs.rx_length
  k_range := by omega
  running_k _ := by omega
  armed_tx h := by rw [htx]; exact hs.armed_tx (ha ▸ h)

/-- An edge of a running engine moves the index on, and edge 68·R stops the engine (R129). -/
theorem LegalState.edgeTo {s : State} (hs : LegalState s) (hk : s.k ≤ physLen s.params.R) (d : Bool) :
    LegalState (s.edgeTo d) where
  st_legal := hs.st_legal
  xs_legal := hs.xs_legal
  tx_length := hs.tx_length
  rx_length := (List.length_set ..).trans hs.rx_length
  k_range := Nat.succ_le_succ hk
  running_k h := by
    have hne : s.k ≠ physLen s.params.R := by simpa [State.edgeTo] using h
    show s.k + 1 ≤ physLen s.params.R
    omega
  armed_tx := hs.armed_tx

/-- The state after reset is legal at any parameters (R42). -/
theorem legalState_atReset (p : Params) (d : Bool) : LegalState (State.atReset p d) where
  st_legal := Nat.zero_le _
  xs_legal := Nat.zero_le _
  tx_length _ h := by cases h
  rx_length := List.length_replicate
  k_range := Nat.zero_le _
  running_k h := by cases h
  armed_tx h := by cases h

theorem State.afterReset_legal (s : State) : LegalState s.afterReset :=
  (legalState_atReset s.params (Config.freeDout s.tick)).of_unset rfl rfl rfl rfl rfl id id

theorem LegalState.begin {s : State} (hs : LegalState s) : LegalState s.begin :=
  hs.of_unset hs.codesLegal rfl rfl rfl rfl id id

theorem LegalState.takeFetch {s : State} (hs : LegalState s) : LegalState s.takeFetch :=
  hs.of_unset hs.codesLegal rfl rfl rfl rfl id id

/-- What a completion leaves in the receive buffer has its length. -/
theorem State.rxAfter_length {s : State} (h : s.rx.length = rbLen s.params.R) :
    s.rxAfter.length = rbLen s.params.R := by
  unfold State.rxAfter
  split
  · rw [List.length_map, List.length_range]
  · exact h

/-- A completion leaves the digits it returned, which have the buffer's length. -/
theorem LegalState.length_of_rxAfter {s : State} (hs : LegalState s) {q : Digits}
    (hq : s.begin.rxAfter = q.map some) : (q.map some).length = s.rx.length := by
  rw [← hq, State.rxAfter_length hs.begin.rx_length, hs.rx_length]
  rfl

/-- Clearing a flag sets none. -/
theorem of_clear_flag {p : Prop} [Decidable p] {b : Bool} (h : (if p then false else b) = true) : b = true := by
  split at h
  · cases h
  · exact h

/-- Every form of next state is legal after a legal state. -/
theorem NextForm.legal {s t : State} {i : Instr} (h : NextForm s i t) (hs : LegalState s) : LegalState t := by
  have hc : t.codesLegal = true := h.codesLegal hs.codesLegal
  cases h
  case reset => exact State.afterReset_legal _
  -- writes, issues, completions and edges
  case writeClk bits hR hl _ => exact hs.of_write hc rfl rfl hl rfl rfl rfl
  case arm v _ _ _ =>
    rw [State.armWrite_eq] at hc ⊢
    exact hs.of_write hc rfl rfl (encoderSeq_length v _) rfl rfl rfl
  case readIssue => exact hs.of_issue hc rfl rfl rfl rfl rfl
  case start => exact hs.of_issue hc rfl rfl rfl rfl rfl
  case readComplete q _ _ _ _ hq => exact hs.of_unset hc rfl rfl (hs.length_of_rxAfter hq) rfl id id
  case complete q _ _ _ hq => exact hs.of_unset hc rfl rfl (hs.length_of_rxAfter hq) rfl id id
  case edge d _ _ hk _ _ => exact hs.begin.edgeTo hk d
  -- stops, which clear flags
  case stopClk =>
    rw [State.stopClk_eq] at hc ⊢
    exact hs.of_unset hc rfl rfl rfl rfl of_clear_flag of_clear_flag
  case stopWrite =>
    rw [State.stopWriteChannel_eq] at hc ⊢
    exact hs.of_unset hc rfl rfl rfl rfl id of_clear_flag
  case stopRead =>
    rw [State.stopReadChannel_eq] at hc ⊢
    exact hs.of_unset hc rfl rfl rfl rfl of_clear_flag id
  -- other calls and actions that branch
  case openLine => rw [State.openLine_eq] at hc ⊢; exact hs.of_unset hc rfl rfl rfl rfl id id
  case configure => rw [State.configure_eq] at hc ⊢; exact hs.of_unset hc rfl rfl rfl rfl id id
  case assert => rw [State.assertMarker_eq] at hc ⊢; exact hs.of_unset hc rfl rfl rfl rfl id id
  case deassert => rw [State.deassertMarker_eq] at hc ⊢; exact hs.of_unset hc rfl rfl rfl rfl id id
  case verify => rw [State.verify_eq] at hc ⊢; exact hs.of_unset hc rfl rfl rfl rfl id id
  -- plain updates of `State.begin` that leave the transfer alone
  all_goals exact hs.of_unset hc rfl rfl rfl rfl id id

/-- Settles O52: it holds, by the forms of next state an instruction can give. -/
theorem legalStateKept : Obligations.LegalStateKept := by
  unfold Obligations.LegalStateKept
  intro s s' hs h
  rcases step_next h with ⟨i, -, hexec⟩ | ⟨-, rfl⟩
  · exact (exec_next hexec).legal hs.takeFetch
  · exact hs.takeFetch.begin

/-! Edges in a legal state. -/

/-- An armed write has the digits of its edges, so an edge in a legal state drives or keeps the level. -/
theorem LegalState.driveLevel {s : State} (hs : LegalState s) : ∃ d, s.driveLevel = .ok d := by
  unfold State.driveLevel
  split
  case isFalse => exact ⟨_, rfl⟩
  case isTrue h =>
    obtain ⟨harmed, -, hk⟩ := h
    obtain ⟨t, ht⟩ := Option.ne_none_iff_exists'.1 (hs.armed_tx harmed)
    have hlt : s.k < t.length := (hs.tx_length t ht).symm ▸ hk
    exact ⟨t[s.k], by rw [ht]; simp [hlt]⟩

/-- An edge of a running engine in a legal state completes. -/
theorem LegalState.exec_sampleEdge {s : State} (hs : LegalState s) (hR : 1 ≤ s.params.R) (he : s.engRun = true) :
    ∃ d, s.begin.driveLevel = .ok d ∧ exec .sampleEdge s = .next (s.begin.edgeTo d) := by
  have hk : s.k ≤ physLen s.params.R := hs.running_k he
  have hl : s.k < s.rx.length := by rw [hs.rx_length]; exact Nat.lt_succ_of_le hk
  obtain ⟨d, hd⟩ := hs.begin.driveLevel
  exact ⟨d, hd, (exec_sampleEdge_of he hR).trans (State.runEdge_of_ok (s := s.begin) hk hl hd)⟩

/-- An edge, field by field. -/
theorem State.begin_edgeTo_eq (s : State) (d : Bool) :
    s.begin.edgeTo d =
      { s.begin with
        rx := s.rx.set s.k (some s.begin.sampleDin)
        dout := if s.readUnknown then Config.freeDout s.begin.tick else d
        engRun := decide (s.k ≠ 68 * s.params.R)
        k := s.k + 1 } := by
  have hlast : (s.k != physLen s.params.R) = decide (s.k ≠ 68 * s.params.R) := by
    simp [bne, beq_eq_decide]
  rw [State.edgeTo, ← hlast]
  rfl

/-- Settles O29: it holds, by what an edge drives. -/
theorem sampleEdgeResult : Obligations.SampleEdgeResult := by
  unfold Obligations.SampleEdgeResult
  refine ⟨fun s hs hR he hknown => ?known, fun s hs hR he hunknown => ?unknown, fun s he => ?stopped⟩
  case known =>
    obtain ⟨d, hd, hexec⟩ := hs.exec_sampleEdge hR he
    refine ⟨d, ?_, ?_⟩
    · rw [hexec, State.begin_edgeTo_eq, if_neg (by simp [hknown])]
    rcases State.driveLevel_ok hd with ⟨harmed, hlate, hk, t, ht, hdigit⟩ | ⟨hkeeps, hdout⟩
    · refine ⟨fun u _ _ hu _ => ?_, fun hno => ?_⟩
      · obtain rfl : t = u := Option.some.inj (ht.symm.trans hu)
        exact hdigit
      · replace hk : s.k < 68 * s.params.R := hk
        rcases hno with hno | hno | hno
        · exact absurd (harmed.symm.trans hno) (by decide)
        · exact absurd (hlate.symm.trans hno) (by decide)
        · omega
    · refine ⟨fun u harmed hlate _ hk => ?_, fun _ => hdout⟩
      rcases hkeeps with hno | hno | hno
      · exact absurd (harmed.symm.trans hno) (by decide)
      · exact absurd (hlate.symm.trans hno) (by decide)
      · exact absurd hk (Nat.not_lt.2 hno)
  case unknown =>
    obtain ⟨d, -, hexec⟩ := hs.exec_sampleEdge hR he
    exact ⟨_, hexec.trans (congrArg Host.Outcome.next (State.begin_edgeTo_eq s d))⟩
  case stopped => rw [exec, execSampleEdge, State.sampleEdge, if_pos (show s.begin.engRun = false from he)]

end Sys2Proof.Machine
end

section
/-!
PROOF. What a step can raise (R136 to R139, R143): each form of next state that pulses the error output, with the
record it pulses before it.
-/

namespace Sys2Proof.Machine

/-- A call that raised an error failed, and the error names it. -/
theorem driverError_of_raised {op : OpId} {st : DriverStatus} {e : ErrorEvent}
    (h : (if st = 0 then none else some (.driverCallFailed op st)) = some e) :
    st ≠ 0 ∧ e = .driverCallFailed op st := by
  split at h
  · cases h
  · next hst => exact ⟨hst, (Option.some.inj h).symm⟩

/-- An error after a call: it names the call and a status that is not 0, and no record comes with it. -/
def callError (t : State) (op : OpId) (e : ErrorEvent) : Prop :=
  ∃ st, st ≠ 0 ∧ e = .driverCallFailed op st ∧ t.record = none

/-- An error of VERIFIED: the mismatch of the record that comes with it. -/
def mismatchError (t : State) (e : ErrorEvent) : Prop :=
  ∃ r, t.record = some r ∧ r.matched = false ∧ e = .roundtripMismatch r.sent r.received

/-- What a call leaves on the error output, when the last pulse is ended. -/
theorem callError_of_raised {t : State} {op : OpId} {st : DriverStatus} {e : ErrorEvent}
    (h : (if st = 0 then none else some (.driverCallFailed op st)) = some e) (hr : t.record = none) :
    callError t op e := by
  obtain ⟨hst, he⟩ := driverError_of_raised h
  exact ⟨st, hst, he, hr⟩

/-- Every error is a call's, one its instruction may raise, or VERIFIED's mismatch. -/
theorem NextForm.error {s t : State} {i : Instr} {e : ErrorEvent} (h : NextForm s i t) (he : t.err = some e) :
    (∃ op, callError t op e ∧ (∀ st, mayRaise i (.driverCallFailed op st))) ∨
      (i = .stVerified ∧ mismatchError t e) := by
  cases h
  -- the calls of boot and the actions of the FSM that make or complete a call
  case openLine =>
    rw [State.openLine_eq] at he ⊢
    exact .inl ⟨_, callError_of_raised he rfl, fun _ => ⟨rfl, rfl⟩⟩
  case configure =>
    rw [State.configure_eq] at he ⊢
    exact .inl ⟨_, callError_of_raised he rfl, fun _ => ⟨rfl, rfl⟩⟩
  case assert =>
    rw [State.assertMarker_eq] at he ⊢
    exact .inl ⟨_, callError_of_raised he rfl, fun _ => ⟨rfl, rfl⟩⟩
  case deassert =>
    rw [State.deassertMarker_eq] at he ⊢
    exact .inl ⟨_, callError_of_raised he rfl, fun _ => ⟨rfl, rfl⟩⟩
  case arm =>
    rw [State.armWrite_eq] at he ⊢
    exact .inl ⟨_, callError_of_raised he rfl, fun _ => ⟨rfl, rfl⟩⟩
  case complete => exact .inl ⟨_, callError_of_raised he rfl, fun _ => ⟨rfl, rfl⟩⟩
  case stopWrite =>
    rw [State.stopWriteChannel_eq] at he ⊢
    exact .inl ⟨_, callError_of_raised he rfl, fun _ => ⟨rfl, rfl⟩⟩
  case stopRead =>
    rw [State.stopReadChannel_eq] at he ⊢
    exact .inl ⟨_, callError_of_raised he rfl, fun _ => ⟨rfl, rfl⟩⟩
  -- VERIFIED
  case verify v q t0 _ _ _ _ _ =>
    rw [State.verify_eq] at he ⊢
    refine .inr ⟨rfl, _, rfl, ?_⟩
    split at he
    · cases he
    · next hne => exact ⟨decide_eq_false hne, (Option.some.inj he).symm⟩
  -- a stop as a word of its own raises nothing
  case stopClk => rw [State.stopClk_eq] at he; cases he
  all_goals cases he

/-- Settles O45: it holds, by the forms that pulse the error output. -/
theorem errorTable : Obligations.ErrorTable := by
  unfold Obligations.ErrorTable
  intro i s s' e h he
  rcases (exec_next h).error he with ⟨op, ⟨st, -, rfl, -⟩, hmay⟩ | ⟨hi, r, -, -, rfl⟩
  · exact hmay st
  · rw [hi]
    exact ⟨rfl, rfl⟩

/-- Settles O46: it holds, the record of a mismatch being pulsed with it. -/
theorem errorOutputs : Obligations.ErrorOutputs := by
  unfold Obligations.ErrorOutputs
  intro i s s' e h he
  rcases (exec_next h).error he with ⟨op, ⟨st, hst, rfl, hrec⟩, -⟩ | ⟨-, r, hrec, hmatch, rfl⟩
  · exact .inl ⟨rfl, hrec, by simp [State.outputs, hrec, he], st, rfl, hst⟩
  · exact .inr ⟨rfl, rfl, rfl, r, hrec, hmatch, rfl, by simp [State.outputs, hrec, he]⟩

end Sys2Proof.Machine
end

section
/-!
PROOF. The order of the FSM's states (R95, R105 to R107, R150): the FSM's turn state by state, and that nothing but
the FSM's turn and a reset writes `st` or `xs`.
-/

namespace Sys2Proof.Machine

/-! The FSM's turn. -/

/-- The FSM's turn outside XFER runs the row of `st`. -/
theorem State.actionRow_of_ne {s : State} {i : Instr} (h : i ≠ .stXfer) : s.actionRow i = i := if_neg h

/-- In XFER it runs the row of `xs` (R93). -/
theorem State.actionRow_stXfer (s : State) : s.actionRow .stXfer = decodeSub s.xs := if_pos rfl

/-- Outside IDLE an enabled step goes to the successor, and without one the turn changes nothing (R95, R107). -/
def State.fsmGoes (s t : State) : Prop :=
  (s.fsmEnabled = true → (t.st, t.xs) = fsmSuccessor s.st s.xs) ∧ (s.fsmEnabled = false → t = s.begin)

/-- An enabled step that goes to the successor. -/
theorem State.fsmGoes_of_enabled {s t : State} (he : s.fsmEnabled = true)
    (h : (t.st, t.xs) = fsmSuccessor s.st s.xs) : s.fsmGoes t :=
  ⟨fun _ => h, fun hne => absurd (he.symm.trans hne) (by decide)⟩

/-- No enabled step, and none taken. -/
theorem State.fsmGoes_of_waits {s : State} (he : s.fsmEnabled = false) : s.fsmGoes s.begin :=
  ⟨fun hen => absurd (he.symm.trans hen) (by decide), fun _ => rfl⟩

/-- The FSM's turn in XFER, sub-state by sub-state. -/
theorem State.fsmGoes_xfer {s t : State} (hl : s.codesLegal = true) (hst : s.st = stXferCode)
    (h : NextForm s (decodeSub s.xs) t) : s.fsmGoes t := by
  have hxs : s.xs.toNat ≤ 4 := (State.codesLegal_eq_true.1 hl).2
  rcases code3_cases s.xs with hx | hx | hx | hx | hx | hx | hx | hx <;> rw [hx] at h hxs
  · cases h
    case arm v _ _ hc =>
      exact State.fsmGoes_of_enabled (by simp [State.fsmEnabled, State.fsmCall, hl, hst, hx, hc])
        (by simp [fsmSuccessor, hst, hx])
    case waits hc _ =>
      exact State.fsmGoes_of_waits (by simp [State.fsmEnabled, State.fsmCall, hl, hst, hx, hc rfl])
  · cases h
    case start =>
      exact State.fsmGoes_of_enabled (by simp [State.fsmEnabled, State.fsmCall, hl, hst, hx])
        (by simp [fsmSuccessor, hst, hx])
    case waits hne _ _ _ _ => exact absurd rfl hne
  · cases h
    case complete q he hr _ _ =>
      exact State.fsmGoes_of_enabled (by simp [State.fsmEnabled, State.fsmCall, hl, hst, hx, he, hr])
        (by simp [fsmSuccessor, hst, hx])
    case waits hw _ _ _ =>
      refine State.fsmGoes_of_waits ?_
      rcases hw rfl with he | hr
      · simp [State.fsmEnabled, State.fsmCall, hl, hst, hx, he]
      · simp [State.fsmEnabled, State.fsmCall, hl, hst, hx, hr]
  · cases h
    case stopWrite hc =>
      exact State.fsmGoes_of_enabled (by simp [State.fsmEnabled, State.fsmCall, hl, hst, hx, hc])
        (by simp [fsmSuccessor, hst, hx])
    case waits hc =>
      exact State.fsmGoes_of_waits (by simp [State.fsmEnabled, State.fsmCall, hl, hst, hx, hc (.inl rfl)])
  · cases h
    case stopRead hc =>
      exact State.fsmGoes_of_enabled (by simp [State.fsmEnabled, State.fsmCall, hl, hst, hx, hc])
        (by simp [fsmSuccessor, hst, hx])
    case waits hc =>
      exact State.fsmGoes_of_waits (by simp [State.fsmEnabled, State.fsmCall, hl, hst, hx, hc (.inr rfl)])
  all_goals exact absurd hxs (by decide)

/-- The FSM's turn outside IDLE, state by state. -/
theorem exec_fsmGoes {s t : State} (hidle : s.st ≠ stIdleCode) (h : exec (decodeState s.st) s = .next t) :
    s.fsmGoes t := by
  have hl := exec_fsm_codesLegal s.st h
  have hst : s.st.toNat ≤ 5 := (State.codesLegal_eq_true.1 hl).1
  have hn := exec_next h
  rcases code3_cases s.st with hc | hc | hc | hc | hc | hc | hc | hc <;> rw [hc] at hn hst
  · exact absurd hc hidle
  · rw [State.actionRow_of_ne (by decide)] at hn
    cases hn
    case assert hcall =>
      exact State.fsmGoes_of_enabled (by simp [State.fsmEnabled, State.fsmCall, hl, hc, hcall])
        (by simp [fsmSuccessor, hc])
    case waits hcall _ _ =>
      exact State.fsmGoes_of_waits (by simp [State.fsmEnabled, State.fsmCall, hl, hc, hcall (.inl rfl)])
  · exact State.fsmGoes_xfer hl hc (s.actionRow_stXfer ▸ hn)
  · rw [State.actionRow_of_ne (by decide)] at hn
    cases hn
    case deassert hcall =>
      exact State.fsmGoes_of_enabled (by simp [State.fsmEnabled, State.fsmCall, hl, hc, hcall])
        (by simp [fsmSuccessor, hc])
    case waits hcall _ _ =>
      exact State.fsmGoes_of_waits (by simp [State.fsmEnabled, State.fsmCall, hl, hc, hcall (.inr rfl)])
  · rw [State.actionRow_of_ne (by decide)] at hn
    cases hn
    case verify =>
      exact State.fsmGoes_of_enabled (by simp [State.fsmEnabled, State.fsmCall, hl, hc]) (by simp [fsmSuccessor, hc])
    case waits hne _ _ _ _ _ => exact absurd rfl hne
  · rw [State.actionRow_of_ne (by decide)] at hn
    cases hn
    exact State.fsmGoes_of_waits (by simp [State.fsmEnabled, hc])
  all_goals exact absurd hst (by decide)

/-- Settles O44: it holds, state by state. -/
theorem fsmOrder : Obligations.FsmOrder := by
  unfold Obligations.FsmOrder
  exact fun s s' => exec_fsmGoes

/-! Who writes `st` and `xs`. -/

/-- No operation but RESET writes `st` or `xs`. -/
theorem NextForm.codes_of_op {s t : State} {i : Instr} {w : OpWord} (h : NextForm s i t) (hop : encodeCode i = .op w)
    (hne : i ≠ .reset) : t.st = s.st ∧ t.xs = s.xs := by
  cases h
  case reset => exact absurd rfl hne
  case openLine l _ => exact s.begin.openLine_codes l
  case configure l c _ _ _ => exact s.begin.configure_codes l c
  case stopClk l _ _ => exact s.begin.stopClk_codes l
  -- the FSM's actions are no operations
  case idleExit | idleCapture | idleStay | assert | deassert | arm | start | complete | stopWrite | stopRead |
    verify => cases hop
  all_goals exact ⟨rfl, rfl⟩

/-- What is fetched is an operation, or the FSM's row of `st` once boot has released it. -/
theorem State.fetched_op_or_state {s : State} {i : Instr} (h : s.fetched = .instr i) :
    (∃ w, encodeCode i = .op w) ∨ (s.boot = .released ∧ i = decodeState s.st) := by
  replace h := (State.fetched_instr h).2
  unfold State.fetchInstr at h
  split at h
  case h_1 w _ =>
    cases hw : decodeStimulus w with
    | error e => simp [hw, Fetched.ofDecode] at h
    | ok j =>
      simp only [hw, Fetched.ofDecode, Fetched.instr.injEq] at h
      subst h
      rcases decodeStimulus_ok hw with ⟨v, rfl⟩ | rfl | rfl <;> exact .inl ⟨_, rfl⟩
  case h_2 w _ =>
    cases hw : decodeOp w with
    | error e => simp [hw, Fetched.ofDecode] at h
    | ok j =>
      simp only [hw, Fetched.ofDecode, Fetched.instr.injEq] at h
      exact .inl (h ▸ decodeOp_ok_op hw)
  case h_3 =>
    rcases State.turnInstr_cases h with ⟨v, rfl⟩ | rfl | rfl | hboot | hfsm | rfl
    · exact .inl ⟨_, rfl⟩
    · exact .inl ⟨_, rfl⟩
    · exact .inl ⟨_, rfl⟩
    · rcases State.bootCall_cases hboot with ⟨l, rfl, -⟩ | ⟨l, c, rfl, -⟩ <;> exact .inl ⟨_, rfl⟩
    · exact .inr hfsm
    · exact .inl ⟨_, rfl⟩

/-- An operation is no code of `st` or `xs`, so it is its own row. -/
theorem State.actionRow_of_op {s : State} {i : Instr} {w : OpWord} (h : encodeCode i = .op w) : s.actionRow i = i :=
  State.actionRow_of_ne (by rintro rfl; cases h)

/-- A step leaves `st` and `xs`, or is a reset, or is the FSM's turn (R17). -/
theorem step_codes {s t : State} (h : step s = .next t) :
    (t.st = s.st ∧ t.xs = s.xs) ∨ s.fetched = .instr .reset ∧ t = s.takeFetch.begin.afterReset ∨
      s.boot = .released ∧ exec (decodeState s.st) s.takeFetch = .next t := by
  rcases step_next h with ⟨i, hi, hexec⟩ | ⟨-, rfl⟩
  · rcases State.fetched_op_or_state hi with ⟨w, hw⟩ | ⟨hb, rfl⟩
    · by_cases hne : i = .reset
      · subst hne
        cases hexec
        exact .inr (.inl ⟨hi, rfl⟩)
      · have hn := exec_next hexec
        rw [State.actionRow_of_op hw] at hn
        exact .inl (hn.codes_of_op hw hne)
    · exact .inr (.inr ⟨hb, hexec⟩)
  · exact .inl ⟨rfl, rfl⟩

/-! EXITED. -/

/-- The FSM's turn in EXITED leaves the state (R105). -/
theorem exec_exited {s t : State} (hst : s.st = stExitedCode) (h : exec (decodeState s.st) s = .next t) :
    t = s.begin := by
  have hl := exec_fsm_codesLegal s.st h
  rw [hst] at h
  exact (Host.Outcome.next.inj ((exec_stExited_of hl).symm.trans h)).symm

/-- Settles O41: it holds, by who writes `st`. -/
theorem onlyResetLeavesExited : Obligations.OnlyResetLeavesExited := by
  unfold Obligations.OnlyResetLeavesExited
  refine ⟨fun s => exec_stExited_of, fun s t hst hnr h => ?stays⟩
  case stays =>
    rcases step_codes h with ⟨hsame, -⟩ | ⟨hreset, -⟩ | ⟨-, hexec⟩
    · exact hsame.trans hst
    · exact absurd hreset hnr
    · rw [exec_exited (s := s.takeFetch) hst hexec]
      exact hst

/-- No successor of a state outside IDLE is EXITED. -/
theorem fsmSuccessor_ne_exited : ∀ st xs : Code3, st ≠ stExitedCode → (fsmSuccessor st xs).1 ≠ stExitedCode := by
  decide

/-- The FSM's turn exits only from IDLE, where the stop flag made it (R96, R106). -/
theorem exec_fsm_exits {s t : State} (h : exec (decodeState s.st) s = .next t) (ht : t.st = stExitedCode) :
    s.st = stExitedCode ∨ s.st = stIdleCode ∧ s.stop = true := by
  by_cases hidle : s.st = stIdleCode
  · have hn := exec_next h
    rw [hidle] at hn
    cases hn
    case idleExit hstop => exact .inr ⟨hidle, hstop⟩
    case idleCapture => cases ht
    case idleStay => cases ht
    case waits _ hne _ _ _ _ _ _ => exact absurd rfl hne
  · obtain ⟨hgo, hstay⟩ := exec_fsmGoes hidle h
    cases he : s.fsmEnabled
    · rw [hstay he] at ht
      exact .inl ht
    · have hsucc : (fsmSuccessor s.st s.xs).1 = stExitedCode := by rw [← hgo he]; exact ht
      by_contra hne
      exact fsmSuccessor_ne_exited s.st s.xs (fun hst => hne (.inl hst)) hsucc

/-- Settles O42: it holds, by who writes `st` and by the FSM's successors. -/
theorem exitOnlyFromIdleWithStop : Obligations.ExitOnlyFromIdleWithStop := by
  unfold Obligations.ExitOnlyFromIdleWithStop
  intro s t h ht
  rcases step_codes h with ⟨hsame, -⟩ | ⟨-, rfl⟩ | ⟨-, hexec⟩
  · exact .inl (hsame.symm.trans ht)
  · cases ht
  · exact exec_fsm_exits (s := s.takeFetch) hexec ht

end Sys2Proof.Machine
end

section
/-!
PROOF. Under PRODUCER_MONOTONIC no value is sent twice (R112, R117): what a step does to the cell and to the last
observed value, then an induction along the run.
-/

namespace Sys2Proof.Machine

/-! The last observed value. -/

/-- Only IDLE's poll and RESET write the last observed value (R20). -/
theorem NextForm.lastObs {s t : State} {i : Instr} (h : NextForm s i t) :
    t.lastObs = s.lastObs ∨ i = .reset ∨ i = .stIdle := by
  cases h
  case reset => exact .inr (.inl rfl)
  case idleCapture => exact .inr (.inr rfl)
  -- calls and actions that branch
  case openLine => rw [State.openLine_eq]; exact .inl rfl
  case configure => rw [State.configure_eq]; exact .inl rfl
  case stopClk => rw [State.stopClk_eq]; exact .inl rfl
  case assert => rw [State.assertMarker_eq]; exact .inl rfl
  case deassert => rw [State.deassertMarker_eq]; exact .inl rfl
  case arm => rw [State.armWrite_eq]; exact .inl rfl
  case stopWrite => rw [State.stopWriteChannel_eq]; exact .inl rfl
  case stopRead => rw [State.stopReadChannel_eq]; exact .inl rfl
  case verify => rw [State.verify_eq]; exact .inl rfl
  -- plain updates of `State.begin`
  all_goals exact .inl rfl

/-- The cell and the last observed value are as they were, and the FSM does not enter MARKER_ASSERTED. -/
def State.observesNothing (s t : State) : Prop :=
  t.cell = s.cell ∧ t.lastObs = s.lastObs ∧ (t.st = stMarkerAssertedCode → s.st = stMarkerAssertedCode)

/-- IDLE captured the cell's content, which differs from the last observed value (R96). -/
def State.observesCell (s t : State) : Prop :=
  s.st = stIdleCode ∧ t.st = stMarkerAssertedCode ∧ s.cell ≠ s.lastObs ∧ t.cell = s.cell ∧ t.lastObs = s.cell ∧
    t.cap = some s.cell

/-- No successor of a state outside IDLE is MARKER_ASSERTED. -/
theorem fsmSuccessor_ne_markerAsserted : ∀ st xs : Code3, st ≠ stMarkerAssertedCode →
    (fsmSuccessor st xs).1 ≠ stMarkerAssertedCode := by
  decide

/-- The FSM's turn captures the cell's content in IDLE or observes nothing. -/
theorem exec_fsm_observes {s t : State} (h : exec (decodeState s.st) s = .next t) :
    s.observesNothing t ∨ s.observesCell t := by
  have hn := exec_next h
  by_cases hidle : s.st = stIdleCode
  · rw [hidle] at hn
    cases hn
    case idleExit => exact .inl ⟨rfl, rfl, fun ht => by cases ht⟩
    case idleCapture _ hnew => exact .inr ⟨hidle, rfl, hnew, rfl, rfl, rfl⟩
    case idleStay => exact .inl ⟨rfl, rfl, fun ht => by cases ht⟩
    case waits _ hne _ _ _ _ _ _ => exact absurd rfl hne
  · obtain ⟨hgo, hstay⟩ := exec_fsmGoes hidle h
    cases he : s.fsmEnabled
    · rw [hstay he]
      exact .inl ⟨rfl, rfl, id⟩
    · have hrow : ∀ st xs : Code3, st ≠ stIdleCode → decodeState st ≠ .reset ∧ decodeState st ≠ .stIdle ∧
          decodeState st ≠ .stopReq ∧ decodeSub xs ≠ .reset ∧ decodeSub xs ≠ .stIdle := by decide
      obtain ⟨hreset, hpoll, hstop, hreset', hpoll'⟩ := hrow s.st s.xs hidle
      have hobs : t.lastObs = s.lastObs := by
        rcases hn.lastObs with hobs | hrow | hrow
        · exact hobs
        · exact absurd (State.actionRow_eq_of_no_sub hrow (by decide)) hreset
        · exact absurd (State.actionRow_eq_of_no_sub hrow (by decide)) hpoll
      have hcell : t.cell = s.cell := by
        rcases exec_shared h with ⟨hcell, -⟩ | hrow | ⟨v, hrow, -⟩ | ⟨-, hcell, -⟩
        · exact hcell
        · exact absurd hrow hreset
        · exact absurd (congrArg encodeCode hrow) (by rw [encodeCode_decodeState]; exact TableCode.noConfusion)
        · exact hcell
      refine .inl ⟨hcell, hobs, fun ht => ?_⟩
      have hsucc : (fsmSuccessor s.st s.xs).1 = stMarkerAssertedCode := by rw [← hgo he]; exact ht
      by_contra hne
      exact fsmSuccessor_ne_markerAsserted s.st s.xs hne hsucc

theorem State.publishes_of_ne {s : State} (h : ∀ v, s.fetched ≠ .instr (.cellSet v)) : s.publishes = [] := by
  unfold State.publishes
  split
  · next v hv => exact absurd hv (h v)
  · rfl

/-- An operation that neither publishes nor resets observes nothing. -/
theorem exec_op_observes {s t : State} {i : Instr} {w : OpWord} (hw : encodeCode i = .op w)
    (hset : ∀ v, i ≠ .cellSet v) (hreset : i ≠ .reset) (h : exec i s = .next t) : s.observesNothing t := by
  have hn := exec_next h
  rw [State.actionRow_of_op hw] at hn
  have hcell : t.cell = s.cell := by
    rcases exec_shared h with ⟨hcell, -⟩ | hrow | ⟨v, hrow, -⟩ | ⟨-, hcell, -⟩
    · exact hcell
    · exact absurd hrow hreset
    · exact absurd hrow (hset v)
    · exact hcell
  have hobs : t.lastObs = s.lastObs := by
    rcases hn.lastObs with hobs | hrow | rfl
    · exact hobs
    · exact absurd hrow hreset
    · cases hw
  exact ⟨hcell, hobs, fun ht => (hn.codes_of_op hw hreset).1.symm.trans ht⟩

/-- A step publishes a value, or is a reset, or captures the cell's content, or does none of these. -/
theorem step_observes {s t : State} (h : step s = .next t) :
    (∃ v, s.fetched = .instr (.cellSet v) ∧ t.cell = v ∧ t.lastObs = s.lastObs ∧ t.st = s.st) ∨
      s.fetched = .instr .reset ∧ t = s.takeFetch.begin.afterReset ∨
      s.publishes = [] ∧ (s.observesNothing t ∨ s.observesCell t) := by
  rcases step_next h with ⟨i, hi, hexec⟩ | ⟨hi, rfl⟩
  · by_cases hset : ∃ v, i = .cellSet v
    · obtain ⟨v, rfl⟩ := hset
      cases hexec
      exact .inl ⟨v, hi, rfl, rfl, rfl⟩
    · replace hset : ∀ v, i ≠ .cellSet v := fun v hv => hset ⟨v, hv⟩
      have hpub : s.publishes = [] :=
        State.publishes_of_ne fun v hv => hset v (Fetched.instr.inj (hi.symm.trans hv))
      by_cases hreset : i = .reset
      · subst hreset
        cases hexec
        exact .inr (.inl ⟨hi, rfl⟩)
      · rcases State.fetched_op_or_state hi with ⟨w, hw⟩ | ⟨-, rfl⟩
        · exact .inr (.inr ⟨hpub, .inl (exec_op_observes (s := s.takeFetch) hw hset hreset hexec)⟩)
        · exact .inr (.inr ⟨hpub, exec_fsm_observes (s := s.takeFetch) hexec⟩)
  · exact .inr (.inr ⟨State.publishes_of_ne fun v hv => by simp [hi] at hv, .inl ⟨rfl, rfl, id⟩⟩)

/-! Along a run. -/

/-- What is published from `s` on exceeds the cell's content, or the content is already observed. -/
def State.pendingBelow (s : State) (published : List Word) : Prop :=
  s.cell = s.lastObs ∨ ∀ v ∈ published, s.cell.toNat < v.toNat

theorem State.captures_of_ne {s t : State} (h : t.st = stMarkerAssertedCode → s.st ≠ stIdleCode) :
    s.captures t = [] := by
  unfold State.captures
  rw [if_neg fun hc => h hc.2 hc.1]

/-- The captured values rise, and each was published in the run or stood in the cell, not yet observed. -/
theorem Run.sent_rises {s t : State} {published sent : List Word} (h : Run s published sent t)
    (hinit : s.params.lastInit = s.params.cellInit) (hmono : producerMonotonic published)
    (hpending : s.pendingBelow published) :
    sent.Pairwise (fun v w => v.toNat < w.toNat) ∧
      ∀ v ∈ sent, v ∈ published ∨ v = s.cell ∧ s.cell ≠ s.lastObs := by
  induction h with
  | done s => exact ⟨.nil, fun v hv => by simp at hv⟩
  | @next s m u published sent hstep _ ih =>
    replace ih := ih (by rw [step_params hstep]; exact hinit) (List.pairwise_append.1 hmono).2.1
    rcases step_observes hstep with ⟨v, hv, hcell, hobs, hst⟩ | ⟨hreset, rfl⟩ |
      ⟨hpub, ⟨hcell, hobs, hst⟩ | ⟨hidle, hasserted, hnew, hcell, hobs, hcap⟩⟩
    · -- the step publishes `v`
      have hpub : s.publishes = [v] := by rw [State.publishes, hv]
      rw [hpub] at hmono hpending ⊢
      rw [State.captures_of_ne fun hm hi => absurd ((hst.symm.trans hm).symm.trans hi) (by decide)]
      obtain ⟨hrises, hfrom⟩ := ih (.inr fun w hw => by
        rw [hcell]
        exact (List.pairwise_cons.1 hmono).1 w hw)
      refine ⟨hrises, fun w hw => .inl ?_⟩
      rcases hfrom w hw with hw | ⟨rfl, -⟩
      · exact List.mem_cons_of_mem v hw
      · rw [hcell]
        exact List.mem_cons_self
    · -- a reset leaves nothing to observe
      have hpub : s.publishes = [] := State.publishes_of_ne fun v hv => by simp [hreset] at hv
      rw [hpub, State.captures_of_ne fun hm => by cases hm]
      have hsame : s.takeFetch.begin.afterReset.cell = s.takeFetch.begin.afterReset.lastObs := hinit.symm
      obtain ⟨hrises, hfrom⟩ := ih (.inl hsame)
      exact ⟨hrises, fun w hw => .inl ((hfrom w hw).resolve_right fun hne => hne.2 hsame)⟩
    · -- nothing is observed
      rw [hpub] at hpending ⊢
      rw [State.captures_of_ne fun hm hi => absurd ((hst hm).symm.trans hi) (by decide)]
      rw [State.pendingBelow, hcell, hobs] at ih
      exact ih hpending
    · -- the cell's content is captured
      rw [hpub] at hpending ⊢
      have hcaptures : s.captures m = [s.cell] := by
        rw [State.captures, if_pos ⟨hidle, hasserted⟩, hcap]
        rfl
      have hsame : m.cell = m.lastObs := hcell.trans hobs.symm
      obtain ⟨hrises, hfrom⟩ := ih (.inl hsame)
      have hpublished : ∀ w ∈ sent, w ∈ published := fun w hw => (hfrom w hw).resolve_right fun hne => hne.2 hsame
      rw [hcaptures]
      refine ⟨List.pairwise_cons.2 ⟨fun w hw => ?_, hrises⟩, fun w hw => ?_⟩
      · exact (hpending.resolve_left hnew) w (hpublished w hw)
      · rcases List.mem_cons.1 hw with rfl | hw
        · exact .inr ⟨rfl, hnew⟩
        · exact .inl (hpublished w hw)

/-- One step with a published value above the cell's content keeps the last observed value at most the cell's, and
what it captures exceeds the value before it. -/
theorem step_observedBelow {s t : State} (hbelow : s.observedBelow) (hnr : s.noReset) (hhigher : s.publishesHigher)
    (h : step s = .next t) :
    t.observedBelow ∧ s.lastObs.toNat ≤ t.lastObs.toNat ∧
      (t.st = stMarkerAssertedCode → s.st ≠ stMarkerAssertedCode →
        t.cap = some t.lastObs ∧ s.lastObs.toNat < t.lastObs.toNat) := by
  unfold State.observedBelow at hbelow ⊢
  rcases step_observes h with ⟨v, hv, hcell, hobs, hst⟩ | ⟨hreset, -⟩ |
    ⟨-, ⟨hcell, hobs, hst⟩ | ⟨-, -, hnew, hcell, hobs, hcap⟩⟩
  · rw [hcell, hobs]
    exact ⟨hbelow.trans (hhigher v hv).le, le_rfl, fun hm hne => absurd (hst.symm.trans hm) hne⟩
  · exact absurd hreset hnr
  · rw [hcell, hobs]
    exact ⟨hbelow, le_rfl, fun hm hne => absurd (hst hm) hne⟩
  · rw [hcell, hobs]
    have hne : s.lastObs.toNat ≠ s.cell.toNat := fun heq => hnew (BitVec.eq_of_toNat_eq heq).symm
    exact ⟨le_rfl, hbelow, fun _ _ => ⟨hcap, lt_of_le_of_ne hbelow hne⟩⟩

/-- Settles O60: it holds, by what each step observes. -/
theorem monotonicNeverResends : Obligations.MonotonicNeverResends := by
  unfold Obligations.MonotonicNeverResends
  exact ⟨fun s t published sent h hsame hinit hmono => (h.sent_rises hinit hmono (.inl hsame)).1,
    fun s t => step_observedBelow⟩

end Sys2Proof.Machine
end

section
/-!
PROOF. What a step of the block's own agents can be (R17, R55, R93, R152): the form of next state of each turn, with
what the turn knows of `st`, `xs` and the boot sequence.
-/

namespace Sys2Proof.Machine

/-- What the FSM's turn leaves, state by state (R96 to R104), where it does not wait. -/
inductive FsmForm (s : State) : State → Prop
  | idleExit : s.st = stIdleCode → s.stop = true → FsmForm s { s.begin with st := stExitedCode }
  | idleCapture : s.st = stIdleCode → FsmForm s
      { s.begin with cap := some s.cell, lastObs := s.cell, cycErr := false, st := stMarkerAssertedCode }
  | idleStay : s.st = stIdleCode → FsmForm s { s.begin with st := stIdleCode }
  | assert : s.st = stMarkerAssertedCode → FsmForm s s.begin.assertMarker
  | arm (v) : s.st = stXferCode → s.xs = xsArmCode → s.cap = some v → FsmForm s (s.begin.armWrite v)
  | start : s.st = stXferCode → s.xs = xsStartCode →
      FsmForm s { s.begin.readClkIssue with busy := true, xs := xsWaitCode }
  | complete (q) : s.st = stXferCode → s.xs = xsWaitCode → s.engRun = false → s.begin.rxAfter = q.map some →
      FsmForm s (s.begin.waitDone q)
  | stopWrite : s.st = stXferCode → s.xs = xsStopWCode → FsmForm s s.begin.stopWriteChannel
  | stopRead : s.st = stXferCode → s.xs = xsStopRCode → FsmForm s s.begin.stopReadChannel
  | deassert : s.st = stMarkerDeassertedCode → FsmForm s s.begin.deassertMarker
  | verify (v q t0) : s.st = stVerifiedCode → FsmForm s (s.begin.verify v q t0)

/-- What a turn of the block's own agents leaves, a reset left out. -/
inductive AgentForm (s : State) : State → Prop
  | waits : AgentForm s s.begin
  | cellSet (v) : AgentForm s { s.begin with cell := v }
  | stopReq : AgentForm s { s.begin with stop := true }
  | openLine (l) : s.boot = openPhase l → AgentForm s (s.begin.openLine l)
  | configure (l c) : l ≠ .marker → s.params.legalCfg l = some c → s.boot = configurePhase l →
      AgentForm s (s.begin.configure l c)
  | edge (d) : s.engRun = true → s.k ≤ physLen s.params.R → s.k < s.rx.length → s.begin.driveLevel = .ok d →
      AgentForm s (s.begin.edgeTo d)
  | fsm {t} : s.boot = .released → FsmForm s t → AgentForm s t

/-- The FSM's turn in XFER, sub-state by sub-state. -/
theorem exec_xfer_form {s t : State} (hl : s.codesLegal = true) (hst : s.st = stXferCode)
    (h : NextForm s (decodeSub s.xs) t) : t = s.begin ∨ FsmForm s t := by
  have hxs : s.xs.toNat ≤ 4 := (State.codesLegal_eq_true.1 hl).2
  rcases code3_cases s.xs with hx | hx | hx | hx | hx | hx | hx | hx <;> rw [hx] at h hxs
  · cases h
    case arm v hv _ _ => exact .inr (.arm v hst hx hv)
    case waits => exact .inl rfl
  · cases h
    case start => exact .inr (.start hst hx)
    case waits => exact .inl rfl
  · cases h
    case complete q he _ _ hq => exact .inr (.complete q hst hx he hq)
    case waits => exact .inl rfl
  · cases h
    case stopWrite => exact .inr (.stopWrite hst hx)
    case waits => exact .inl rfl
  · cases h
    case stopRead => exact .inr (.stopRead hst hx)
    case waits => exact .inl rfl
  all_goals exact absurd hxs (by decide)

/-- The FSM's turn, state by state. -/
theorem exec_fsm_form {s t : State} (h : exec (decodeState s.st) s = .next t) : t = s.begin ∨ FsmForm s t := by
  have hl := exec_fsm_codesLegal s.st h
  have hst : s.st.toNat ≤ 5 := (State.codesLegal_eq_true.1 hl).1
  have hn := exec_next h
  rcases code3_cases s.st with hc | hc | hc | hc | hc | hc | hc | hc <;> rw [hc] at hn hst
  · rw [State.actionRow_of_ne (by decide)] at hn
    cases hn
    case idleExit hstop => exact .inr (.idleExit hc hstop)
    case idleCapture => exact .inr (.idleCapture hc)
    case idleStay => exact .inr (.idleStay hc)
    case waits => exact .inl rfl
  · rw [State.actionRow_of_ne (by decide)] at hn
    cases hn
    case assert => exact .inr (.assert hc)
    case waits => exact .inl rfl
  · exact exec_xfer_form hl hc (s.actionRow_stXfer ▸ hn)
  · rw [State.actionRow_of_ne (by decide)] at hn
    cases hn
    case deassert => exact .inr (.deassert hc)
    case waits => exact .inl rfl
  · rw [State.actionRow_of_ne (by decide)] at hn
    cases hn
    case verify v q t0 _ _ _ _ _ => exact .inr (.verify v q t0 hc)
    case waits => exact .inl rfl
  · rw [State.actionRow_of_ne (by decide)] at hn
    cases hn
    exact .inl rfl
  all_goals exact absurd hst (by decide)

/-- A call of the boot sequence, made or still waiting. -/
theorem exec_boot_form {s t : State} {i : Instr} (hi : s.bootCall = some i) (h : exec i s = .next t) :
    AgentForm s t := by
  have hn := exec_next h
  rcases State.bootCall_cases hi with ⟨l, rfl, hb⟩ | ⟨l, c, rfl, hl, hc, hb⟩
  · cases hn
    case openLine => exact .openLine l hb
    case waits => exact .waits
  · cases hn
    case configure => exact .configure l c hl hc hb
    case waits => exact .waits

/-- A step of the block's own agents is a reset or takes one of these forms. -/
theorem step_agent_form {s t : State} (hb : s.blockRun) (h : step s = .next t) :
    s.fetched = .instr .reset ∧ t = s.takeFetch.begin.afterReset ∨ AgentForm s.takeFetch t := by
  rcases step_next h with ⟨i, hi, hexec⟩ | ⟨-, rfl⟩
  · rcases State.fetched_cases hb hi with ⟨v, rfl⟩ | rfl | rfl | hboot | ⟨hreleased, rfl⟩ | rfl
    · cases hexec
      exact .inr (.cellSet v)
    · cases hexec
      exact .inr .stopReq
    · cases hexec
      exact .inl ⟨hi, rfl⟩
    · exact .inr (exec_boot_form (s := s.takeFetch) hboot hexec)
    · rcases exec_fsm_form (s := s.takeFetch) hexec with rfl | hform
      · exact .inr .waits
      · exact .inr (.fsm hreleased hform)
    · cases exec_next hexec
      case edge d he _ hk hl hd => exact .inr (.edge d he hk hl hd)
      case waits => exact .inr .waits
  · exact .inr .waits

/-- A step takes the head of the queue and puts nothing in its place. -/
theorem step_queue {s t : State} (h : step s = .next t) : t.queue = s.queue.tail := by
  rcases step_next h with ⟨i, -, hexec⟩ | ⟨-, rfl⟩
  · exact (exec_next hexec).outside.1
  · rfl

/-- A run of the block's own agents stays one. -/
theorem step_blockRun {s t : State} (hb : s.blockRun) (h : step s = .next t) : t.blockRun := by
  intro w hw
  rw [step_queue h] at hw
  exact hb w (List.mem_of_mem_tail hw)

end Sys2Proof.Machine
end

section
/-!
PROOF. Every register a rule reads is written before (R21): what each turn of the block's own agents leaves of the
captured value, the start time, the running engine and the digits of the receive buffer.
-/

namespace Sys2Proof.Machine

/-- The part of `WrittenBeforeRead` that speaks of the registers a rule reads; the rest is the legal state, R and the
queue. -/
structure RegistersWritten (s : State) : Prop where
  cap_written : s.inTransfer → s.cap ≠ none
  start_written : s.inTransfer → s.st ≠ stMarkerAssertedCode → s.tStart ≠ none
  running_wait : s.engRun = true → s.st = stXferCode ∧ s.xs = xsWaitCode
  edges_written : s.afterStart → ∀ j, j < s.k → ∃ d, s.rx[j]? = some (some d)
  edges_done : s.afterStart → s.engRun = false → s.k = rbLen s.params.R

theorem WrittenBeforeRead.registers {s : State} (hs : WrittenBeforeRead s) : RegistersWritten s where
  cap_written := hs.cap_written
  start_written := hs.start_written
  running_wait := hs.running_wait
  edges_written := hs.edges_written
  edges_done := hs.edges_done

/-- The two parts make the whole. -/
theorem RegistersWritten.written {s : State} (hs : RegistersWritten s) (hl : LegalState s) (hR : 1 ≤ s.params.R)
    (hb : s.blockRun) : WrittenBeforeRead s where
  legal := hl
  repeat_legal := hR
  block_run := hb
  cap_written := hs.cap_written
  start_written := hs.start_written
  running_wait := hs.running_wait
  edges_written := hs.edges_written
  edges_done := hs.edges_done

/-! The parts of a transfer. -/

/-- The read of a transfer is not issued yet, or there is no transfer. -/
theorem State.not_afterStart {s : State}
    (h : s.st = stIdleCode ∨ s.st = stExitedCode ∨ s.st = stMarkerAssertedCode ∨
      s.st = stXferCode ∧ (s.xs = xsArmCode ∨ s.xs = xsStartCode)) : ¬ s.afterStart := by
  rcases h with h | h | h | ⟨h, hxs | hxs⟩
  · simp [State.afterStart, h]
  · simp [State.afterStart, h]
  · simp [State.afterStart, h]
  · simp [State.afterStart, h, hxs]
  · simp [State.afterStart, h, hxs]

/-- The engine is off outside XFER WAIT. -/
theorem RegistersWritten.engine_off {s : State} (hs : RegistersWritten s)
    (h : s.st ≠ stXferCode ∨ s.xs ≠ xsWaitCode) : s.engRun = false := by
  rw [← Bool.not_eq_true]
  intro he
  obtain ⟨hst, hxs⟩ := hs.running_wait he
  exact h.elim (fun hne => hne hst) (fun hne => hne hxs)

/-- Nothing a rule reads has changed. -/
theorem RegistersWritten.of_same {s t : State} (hs : RegistersWritten s) (hst : t.st = s.st) (hxs : t.xs = s.xs)
    (hcap : t.cap = s.cap) (hstart : t.tStart = s.tStart) (he : t.engRun = s.engRun) (hrx : t.rx = s.rx)
    (hk : t.k = s.k) (hp : t.params = s.params) : RegistersWritten t where
  cap_written := by rw [State.inTransfer, hst, hcap]; exact hs.cap_written
  start_written := by rw [State.inTransfer, hst, hstart]; exact hs.start_written
  running_wait := by rw [he, hst, hxs]; exact hs.running_wait
  edges_written := by rw [State.afterStart, hst, hxs, hk, hrx]; exact hs.edges_written
  edges_done := by rw [State.afterStart, hst, hxs, he, hk, hp]; exact hs.edges_done

/-- Outside a transfer no rule reads anything. -/
theorem RegistersWritten.of_outside {t : State} (hst : t.st = stIdleCode ∨ t.st = stExitedCode)
    (he : t.engRun = false) : RegistersWritten t := by
  have hout : ¬ t.inTransfer := fun hin => hst.elim hin.1 hin.2
  have hbefore : ¬ t.afterStart := State.not_afterStart (hst.imp_right .inl)
  exact ⟨fun hin => absurd hin hout, fun hin => absurd hin hout, fun hrun => by simp [he] at hrun,
    fun hafter => absurd hafter hbefore, fun hafter => absurd hafter hbefore⟩

/-- Before the read is issued, a rule reads the captured value and the start time. -/
theorem RegistersWritten.of_before {t : State} (hbefore : ¬ t.afterStart) (he : t.engRun = false)
    (hcap : t.cap ≠ none) (hstart : t.st ≠ stMarkerAssertedCode → t.tStart ≠ none) : RegistersWritten t :=
  ⟨fun _ => hcap, fun _ => hstart, fun hrun => by simp [he] at hrun, fun hafter => absurd hafter hbefore,
    fun hafter => absurd hafter hbefore⟩

/-- After the last edge, it reads every digit of the receive buffer too. -/
theorem RegistersWritten.of_done {t : State} (hcap : t.cap ≠ none) (hstart : t.tStart ≠ none) (he : t.engRun = false)
    (hk : t.k = rbLen t.params.R) (hrx : ∀ j, j < rbLen t.params.R → ∃ d, t.rx[j]? = some (some d)) :
    RegistersWritten t :=
  ⟨fun _ => hcap, fun _ _ => hstart, fun hrun => by simp [he] at hrun, fun _ j hj => hrx j (hk ▸ hj), fun _ _ => hk⟩

/-! The FSM's turn. -/

theorem State.inTransfer_of {s : State} {c : Code3} (hst : s.st = c)
    (hc : c ≠ stIdleCode ∧ c ≠ stExitedCode) : s.inTransfer := by
  rw [State.inTransfer, hst]
  exact hc

/-- Once the read of the transfer has returned, every digit is there: the edges have all been taken. -/
theorem RegistersWritten.digits {s : State} (hs : RegistersWritten s) (hafter : s.afterStart) (he : s.engRun = false)
    {j : Nat} (hj : j < rbLen s.params.R) : ∃ d, s.rx[j]? = some (some d) :=
  hs.edges_written hafter j ((hs.edges_done hafter he).symm ▸ hj)

/-- The registers after an action that comes after the last edge and keeps what VERIFIED will read. -/
theorem RegistersWritten.of_after {s t : State} (hs : RegistersWritten s) (hafter : s.afterStart)
    (hin : s.inTransfer) (hne : s.st ≠ stMarkerAssertedCode) (hoff : s.engRun = false) (hcap : t.cap = s.cap)
    (hstart : t.tStart = s.tStart) (he : t.engRun = false) (hrx : t.rx = s.rx) (hk : t.k = s.k)
    (hp : t.params = s.params) : RegistersWritten t := by
  refine .of_done (hcap ▸ hs.cap_written hin) (hstart ▸ hs.start_written hin hne) he ?_ ?_
  · rw [hk, hp]
    exact hs.edges_done hafter hoff
  · rw [hrx, hp]
    exact fun j => hs.digits hafter hoff

/-- The FSM's turn keeps every register a rule will read written. -/
theorem FsmForm.registers {s t : State} (h : FsmForm s t) (hs : WrittenBeforeRead s) : RegistersWritten t := by
  have hw := hs.registers
  cases h
  -- IDLE: nothing is read, or the captured value is written
  case idleExit hst _ => exact .of_outside (.inr rfl) (hw.engine_off (.inl (by rw [hst]; decide)))
  case idleStay hst => exact .of_outside (.inl rfl) (hw.engine_off (.inl (by rw [hst]; decide)))
  case idleCapture hst =>
    exact .of_before (State.not_afterStart (.inr (.inr (.inl rfl)))) (hw.engine_off (.inl (by rw [hst]; decide)))
      (Option.some_ne_none _) (fun hne => absurd rfl hne)
  -- before the read is issued
  case assert hst =>
    rw [State.assertMarker_eq]
    exact .of_before (State.not_afterStart (.inr (.inr (.inr ⟨rfl, .inl rfl⟩))))
      (hw.engine_off (.inl (by rw [hst]; decide))) (hs.cap_written (State.inTransfer_of hst (by decide)))
      (fun _ => Option.some_ne_none _)
  case arm v hst hxs hv =>
    rw [State.armWrite_eq]
    have hin : s.inTransfer := State.inTransfer_of hst (by decide)
    exact .of_before (State.not_afterStart (.inr (.inr (.inr ⟨hst, .inr rfl⟩))))
      (hw.engine_off (.inr (by rw [hxs]; decide))) (hs.cap_written hin)
      (fun _ => hs.start_written hin (by rw [hst]; decide))
  -- the issue: no edge is taken yet
  case start hst hxs =>
    have hin : s.inTransfer := State.inTransfer_of hst (by decide)
    exact {
      cap_written := fun _ => hs.cap_written hin
      start_written := fun _ _ => hs.start_written hin (by rw [hst]; decide)
      running_wait := fun _ => ⟨hst, rfl⟩
      edges_written := fun _ j hj => absurd hj (Nat.not_lt_zero j)
      edges_done := fun _ he => by cases he }
  -- after the last edge
  case complete q hst hxs he hq =>
    have hin : s.inTransfer := State.inTransfer_of hst (by decide)
    have hafter : s.afterStart := .inl ⟨hst, by rw [hxs]; decide⟩
    have hlen : q.length = rbLen s.params.R := by
      rw [← List.length_map (f := some), hs.legal.length_of_rxAfter hq, hs.legal.rx_length]
    refine .of_done (hs.cap_written hin) (hs.start_written hin (by rw [hst]; decide)) he
      (hs.edges_done hafter he) fun j hj => ?_
    have hj : j < q.length := hlen ▸ hj
    exact ⟨q[j], by simp [State.waitDone, hj]⟩
  case stopWrite hst hxs =>
    rw [State.stopWriteChannel_eq]
    have hoff : s.engRun = false := hw.engine_off (.inr (by rw [hxs]; decide))
    exact hw.of_after (.inl ⟨hst, by rw [hxs]; decide⟩) (State.inTransfer_of hst (by decide)) (by rw [hst]; decide)
      hoff rfl rfl hoff rfl rfl rfl
  case stopRead hst hxs =>
    rw [State.stopReadChannel_eq]
    have hoff : s.engRun = false := hw.engine_off (.inr (by rw [hxs]; decide))
    exact hw.of_after (.inl ⟨hst, by rw [hxs]; decide⟩) (State.inTransfer_of hst (by decide)) (by rw [hst]; decide)
      hoff rfl rfl (by simp [hoff]) rfl rfl rfl
  case deassert hst =>
    rw [State.deassertMarker_eq]
    have hoff : s.engRun = false := hw.engine_off (.inl (by rw [hst]; decide))
    exact hw.of_after (.inr (.inl hst)) (State.inTransfer_of hst (by decide)) (by rw [hst]; decide)
      hoff rfl rfl hoff rfl rfl rfl
  case verify v q t0 hst =>
    rw [State.verify_eq]
    exact .of_outside (.inl rfl) (hw.engine_off (.inl (by rw [hst]; decide)))

/-! The other turns. -/

/-- An edge writes the digit of its index and moves the index on. -/
theorem RegistersWritten.edgeTo {s : State} (hs : RegistersWritten s) (he : s.engRun = true) (hl : s.k < s.rx.length)
    (d : Bool) : RegistersWritten (s.begin.edgeTo d) where
  cap_written := hs.cap_written
  start_written := hs.start_written
  running_wait _ := hs.running_wait he
  edges_written hafter j hj := by
    show ∃ d, (s.rx.set s.k (some s.begin.sampleDin))[j]? = some (some d)
    by_cases hjk : j = s.k
    · exact ⟨_, by rw [hjk, List.getElem?_set_self hl]⟩
    · rw [List.getElem?_set_ne (Ne.symm hjk)]
      have hj : j < s.k + 1 := hj
      exact hs.edges_written hafter j (by omega)
  edges_done _ hoff := by
    have hlast : s.k = physLen s.params.R := by simpa [State.edgeTo] using hoff
    exact congrArg (· + 1) hlast

/-- Every turn of the block's own agents keeps every register a rule will read written. -/
theorem AgentForm.registers {s t : State} (h : AgentForm s t) (hs : WrittenBeforeRead s) : RegistersWritten t := by
  have hw := hs.registers
  cases h
  case fsm _ hform => exact hform.registers hs
  case edge d he _ hl _ => exact hw.edgeTo he hl d
  case openLine => rw [State.openLine_eq]; exact hw.of_same rfl rfl rfl rfl rfl rfl rfl rfl
  case configure => rw [State.configure_eq]; exact hw.of_same rfl rfl rfl rfl rfl rfl rfl rfl
  -- the PRODUCER's turns, and a turn that waits
  all_goals exact hw.of_same rfl rfl rfl rfl rfl rfl rfl rfl

theorem WrittenBeforeRead.takeFetch {s : State} (hs : WrittenBeforeRead s) : WrittenBeforeRead s.takeFetch :=
  (hs.registers.of_same (t := s.takeFetch) rfl rfl rfl rfl rfl rfl rfl rfl).written hs.legal.takeFetch
    hs.repeat_legal (State.blockRun_takeFetch hs.block_run)

/-- A step of the block's own agents keeps the invariant. -/
theorem step_written {s t : State} (hs : WrittenBeforeRead s) (h : step s = .next t) : WrittenBeforeRead t := by
  have hw : RegistersWritten t := by
    rcases step_agent_form hs.block_run h with ⟨-, rfl⟩ | hform
    · exact .of_outside (.inl rfl) rfl
    · exact hform.registers hs.takeFetch
  exact hw.written (legalStateKept s t hs.legal h) (step_params h ▸ hs.repeat_legal) (step_blockRun hs.block_run h)

/-- Settles O53: it holds, turn by turn of the block's own agents. -/
theorem writtenBeforeReadKept : Obligations.WrittenBeforeReadKept := by
  unfold Obligations.WrittenBeforeReadKept
  exact fun s t => step_written

/-! No fault on any path. -/

/-- A buffer whose every digit is written is the written form of a sequence. -/
theorem exists_eq_map_some {l : List (Option Bool)} (h : ∀ j, j < l.length → ∃ d, l[j]? = some (some d)) :
    ∃ q : Digits, l = q.map some := by
  refine ⟨l.map (·.getD false), List.ext_getElem? fun j => ?_⟩
  by_cases hj : j < l.length
  · obtain ⟨d, hd⟩ := h j hj
    simp [hd]
  · rw [List.getElem?_eq_none (by omega), List.getElem?_eq_none (by simp; omega)]

/-- After the last edge the receive buffer reads whole. -/
theorem WrittenBeforeRead.rx_eq {s : State} (hs : WrittenBeforeRead s) (hafter : s.afterStart)
    (he : s.engRun = false) : ∃ q : Digits, s.rx = q.map some ∧ q.length = rbLen s.params.R := by
  obtain ⟨q, hq⟩ := exists_eq_map_some fun j hj => hs.registers.digits hafter he (hs.legal.rx_length ▸ hj)
  refine ⟨q, hq, ?_⟩
  rw [← hs.legal.rx_length, hq, List.length_map]

/-- In XFER WAIT the completion finds every digit. -/
theorem WrittenBeforeRead.rxAfter_eq {s : State} (hs : WrittenBeforeRead s) (hafter : s.afterStart)
    (he : s.engRun = false) : ∃ q : Digits, s.begin.rxAfter = q.map some := by
  by_cases hbad : s.begin.readCall.status ≠ 0 ∨ s.begin.rdDirty = true
  · obtain ⟨q, -, hq⟩ := State.rxAfter_drawn hbad
    exact ⟨q, hq⟩
  · obtain ⟨hst, hd⟩ := not_or.1 hbad
    rw [State.rxAfter_good (not_not.1 hst) (by simpa using hd)]
    obtain ⟨q, hq, -⟩ := hs.rx_eq hafter he
    exact ⟨q, hq⟩

/-- The FSM's turn in XFER completes. -/
theorem WrittenBeforeRead.exec_xfer {s : State} (hs : WrittenBeforeRead s) (hst : s.st = stXferCode) :
    ∃ t, exec (decodeSub s.xs) s = .next t := by
  have hl := hs.legal.codesLegal
  have hin : s.inTransfer := State.inTransfer_of hst (by decide)
  rcases code3_cases s.xs with hx | hx | hx | hx | hx | hx | hx | hx <;> rw [hx]
  · obtain ⟨v, hv⟩ := Option.ne_none_iff_exists'.1 (hs.cap_written hin)
    exact ⟨_, exec_xsArm_of_cap hl hv hs.repeat_legal⟩
  · exact ⟨_, exec_xsStart_of hl hs.repeat_legal⟩
  · by_cases hw : s.engRun = true ∨ s.begin.readReturns = false
    · exact ⟨_, exec_xsWait_waits hl hw⟩
    · obtain ⟨he, hr⟩ := not_or.1 hw
      replace he : s.engRun = false := by simpa using he
      obtain ⟨q, hq⟩ := hs.rxAfter_eq (.inl ⟨hst, by rw [hx]; decide⟩) he
      exact ⟨_, exec_xsWait_of hl hs.repeat_legal he (by simpa using hr) hq⟩
  · exact ⟨_, State.fsmAction_of _ hl⟩
  · exact ⟨_, State.fsmAction_of _ hl⟩
  all_goals exact absurd (hx ▸ hs.legal.xs_legal) (by decide)

/-- The FSM's turn completes in every state. -/
theorem WrittenBeforeRead.exec_fsm {s : State} (hs : WrittenBeforeRead s) :
    ∃ t, exec (decodeState s.st) s = .next t := by
  have hl := hs.legal.codesLegal
  rcases code3_cases s.st with hc | hc | hc | hc | hc | hc | hc | hc <;> rw [hc]
  · exact ⟨_, State.fsmAction_of _ hl⟩
  · exact ⟨_, State.fsmAction_of _ hl⟩
  · obtain ⟨t, ht⟩ := hs.exec_xfer hc
    exact ⟨t, (exec_stXfer s).trans ht⟩
  · exact ⟨_, State.fsmAction_of _ hl⟩
  · have hin : s.inTransfer := State.inTransfer_of hc (by decide)
    obtain ⟨v, hv⟩ := Option.ne_none_iff_exists'.1 (hs.cap_written hin)
    obtain ⟨t0, ht⟩ := Option.ne_none_iff_exists'.1 (hs.start_written hin (by rw [hc]; decide))
    obtain ⟨q, hq, hlen⟩ := hs.rx_eq (.inr (.inr hc)) (hs.registers.engine_off (.inl (by rw [hc]; decide)))
    exact ⟨_, exec_stVerified_of hl hv hq ht hs.repeat_legal hlen⟩
  · exact ⟨_, State.fsmAction_of _ hl⟩
  all_goals exact absurd (hc ▸ hs.legal.st_legal) (by decide)

/-- What the block's own agents fetch completes. -/
theorem WrittenBeforeRead.exec_fetched {s : State} {i : Instr} (hs : WrittenBeforeRead s)
    (h : s.fetched = .instr i) : ∃ t, exec i s.takeFetch = .next t := by
  rcases State.fetched_cases hs.block_run h with ⟨v, rfl⟩ | rfl | rfl | hboot | ⟨-, rfl⟩ | rfl
  · exact ⟨_, rfl⟩
  · exact ⟨_, rfl⟩
  · exact ⟨_, rfl⟩
  · rcases State.bootCall_cases hboot with ⟨l, rfl, -⟩ | ⟨l, c, rfl, -, hc, -⟩
    · exact ⟨_, rfl⟩
    · rw [exec, execConfigure, State.configureRefusal_eq_none (s := s.takeFetch) hs.repeat_legal hc]
      exact ⟨_, rfl⟩
  · exact hs.takeFetch.exec_fsm
  · cases he : s.engRun
    · exact ⟨_, if_pos he⟩
    · obtain ⟨d, -, hexec⟩ := hs.legal.takeFetch.exec_sampleEdge hs.repeat_legal he
      exact ⟨_, hexec⟩

/-- The block's own agents fetch an instruction or nothing, unless a stimulus word does not decode (R78). -/
theorem WrittenBeforeRead.fetched_cases {s : State} (hs : WrittenBeforeRead s) :
    (∃ i, s.fetched = .instr i) ∨ s.fetched = .idle ∨ ∃ e, s.fetched = .refused (.undecodable e) := by
  cases h : s.fetched with
  | instr i => exact .inl ⟨i, rfl⟩
  | idle => exact .inr (.inl rfl)
  | refused e =>
    refine .inr (.inr ?_)
    rw [State.fetched_of hs.repeat_legal] at h
    cases hf : s.nextFetch with
    | stimulus w =>
      rw [hf, State.fetchInstr] at h
      cases hw : decodeStimulus w with
      | ok i => simp [hw, Fetched.ofDecode] at h
      | error d => exact ⟨d, by rw [← h, hw]; rfl⟩
    | word w =>
      unfold State.nextFetch at hf
      split at hf
      · cases hf
      · next hq => exact absurd (by simp [hq, hf]) (hs.block_run w)
    | turn a =>
      rw [hf] at h
      cases a with
      | boot => cases hb : s.bootCall <;> simp [State.fetchInstr, State.turnInstr, hb] at h
      | fsm => by_cases hb : s.boot = .released <;> simp [State.fetchInstr, State.turnInstr, decodeCode,
          Fetched.ofDecode, hb] at h
      | producerSet _ | producerStop | reset | sampler => cases h

/-- Settles O54: it holds, every register that a turn reads being written. -/
theorem noFaultOnAnyPath : Obligations.NoFaultOnAnyPath := by
  unfold Obligations.NoFaultOnAnyPath
  intro s hs
  rcases hs.fetched_cases with ⟨i, hi⟩ | hidle | ⟨e, he⟩
  · obtain ⟨t, ht⟩ := hs.exec_fetched hi
    exact .inl ⟨t, (step_of_instr hi).trans ht⟩
  · exact .inl ⟨_, step_of_idle hidle⟩
  · exact .inr ⟨e, step_of_refused he⟩

end Sys2Proof.Machine
end

section
/-!
PROOF. Under DRIVER_OK (R108, R120): what each turn of the block's own agents leaves of the environment, of the boot
sequence and of the marker line.
-/

namespace Sys2Proof.Machine

/-! The environment. -/

/-- The environment after the issue of a read: what the script gave for the next transfer holds for this one (R79). -/
def Env.issued (e : Env) : Env :=
  { e with pre := none, preNow := e.pre, flipNow := e.flipNext, flipNext := [] }

/-- Under DRIVER_OK the issue of a read changes the environment, and no other action of the FSM does. -/
theorem FsmForm.env {s t : State} (h : FsmForm s t) (hok : s.driverOk) :
    t.env = s.env ∨ t.env = s.env.issued := by
  have huse : ∀ op, (s.begin.useScripted op).env = s.env := State.driverOk_useScripted (State.driverOk_begin hok)
  cases h
  case start => exact .inr (congrArg Env.issued (huse opReadClk))
  case assert => rw [State.assertMarker_eq]; exact .inl (huse _)
  case arm => rw [State.armWrite_eq]; exact .inl (huse _)
  case stopWrite => rw [State.stopWriteChannel_eq]; exact .inl (huse _)
  case stopRead => rw [State.stopReadChannel_eq]; exact .inl (huse _)
  case deassert => rw [State.deassertMarker_eq]; exact .inl (huse _)
  case verify => rw [State.verify_eq]; exact .inl rfl
  all_goals exact .inl rfl

/-- The same of every turn. -/
theorem AgentForm.env {s t : State} (h : AgentForm s t) (hok : s.driverOk) :
    t.env = s.env ∨ t.env = s.env.issued := by
  have huse : ∀ op, (s.begin.useScripted op).env = s.env := State.driverOk_useScripted (State.driverOk_begin hok)
  cases h
  case fsm _ hform => exact hform.env hok
  case openLine => rw [State.openLine_eq]; exact .inl (huse _)
  case configure => rw [State.configure_eq]; exact .inl (huse _)
  all_goals exact .inl rfl

/-- DRIVER_OK stays. -/
theorem AgentForm.driverOk {s t : State} (h : AgentForm s t) (hok : s.driverOk) : t.driverOk := by
  rw [State.driverOk]
  rcases h.env hok with henv | henv <;> rw [henv] <;> exact hok

/-- Under DRIVER_OK a call on a usable channel succeeds (R120, R122). -/
theorem State.callStatus_good {s : State} (hok : s.driverOk) (op : OpId) {l : Line} (hu : s.usable l = true) :
    s.begin.callStatus op (s.begin.usable l) = 0 := by
  rw [show s.begin.usable l = true from hu]
  exact State.driverOk_callStatus (State.driverOk_begin hok) op

/-! The boot sequence. -/

/-- The FSM leaves the boot sequence alone. -/
theorem FsmForm.sameBoot {s t : State} (h : FsmForm s t) : s.sameBoot t := by
  cases h
  case assert => rw [State.assertMarker_eq]; exact ⟨rfl, rfl, rfl, rfl, rfl, rfl⟩
  case arm => rw [State.armWrite_eq]; exact ⟨rfl, rfl, rfl, rfl, rfl, rfl⟩
  case stopWrite => rw [State.stopWriteChannel_eq]; exact ⟨rfl, rfl, rfl, rfl, rfl, rfl⟩
  case stopRead => rw [State.stopReadChannel_eq]; exact ⟨rfl, rfl, rfl, rfl, rfl, rfl⟩
  case deassert => rw [State.deassertMarker_eq]; exact ⟨rfl, rfl, rfl, rfl, rfl, rfl⟩
  case verify => rw [State.verify_eq]; exact ⟨rfl, rfl, rfl, rfl, rfl, rfl⟩
  all_goals exact ⟨rfl, rfl, rfl, rfl, rfl, rfl⟩

theorem openPhase_ne_released (l : Line) : openPhase l ≠ .released := by cases l <;> decide

theorem configurePhase_ne_released {l : Line} (h : l ≠ .marker) : configurePhase l ≠ .released := by
  cases l with
  | marker => exact absurd rfl h
  | dataOut => decide
  | dataIn => decide

/-- A turn leaves the boot sequence alone, or makes its next call, which moves it on. -/
theorem AgentForm.boot {s t : State} (h : AgentForm s t) :
    s.sameBoot t ∨ (∃ l, s.boot = openPhase l ∧ t = s.begin.openLine l) ∨
      ∃ l c, l ≠ .marker ∧ s.params.legalCfg l = some c ∧ s.boot = configurePhase l ∧ t = s.begin.configure l c := by
  cases h
  case fsm _ hform => exact .inl hform.sameBoot
  case openLine l hb => exact .inr (.inl ⟨l, hb, rfl⟩)
  case configure l c hl hc hb => exact .inr (.inr ⟨l, c, hl, hc, hb, rfl⟩)
  all_goals exact .inl ⟨rfl, rfl, rfl, rfl, rfl, rfl⟩

/-- The FSM stays in IDLE until boot has released it (R152). -/
theorem AgentForm.released_first {s t : State} (h : AgentForm s t) (hs : s.boot ≠ .released → s.st = stIdleCode) :
    t.boot ≠ .released → t.st = stIdleCode := by
  cases h
  case fsm hb hform =>
    obtain ⟨hboot, -⟩ := hform.sameBoot
    exact fun hne => absurd (hboot.trans hb) hne
  case openLine l hb =>
    rw [(s.begin.openLine_codes l).1]
    exact fun _ => hs (hb ▸ openPhase_ne_released l)
  case configure l c hl hc hb =>
    rw [(s.begin.configure_codes l c).1]
    exact fun _ => hs (hb ▸ configurePhase_ne_released hl)
  all_goals exact hs

/-- Under DRIVER_OK an OPEN_LINE writes its handle. -/
theorem State.openLine_good {s : State} (hok : s.driverOk) (l : Line) :
    s.begin.openLine l =
      { s.begin.useScripted opOpenLine with
        hMarker := if l = .marker then some ⟨s.params.spec l, s.tick + 1⟩ else s.hMarker
        hDout := if l = .dataOut then some ⟨s.params.spec l, s.tick + 1⟩ else s.hDout
        hDin := if l = .dataIn then some ⟨s.params.spec l, s.tick + 1⟩ else s.hDin
        boot := if s.boot = openPhase l then (openPhase l).next else s.boot
        ret := .opened 0 true } := by
  rw [State.openLine_eq, State.driverOk_rawStatus (State.driverOk_begin hok)]
  simp only [true_and, if_true]
  rfl

/-- Under DRIVER_OK a CONFIGURE of an opened channel writes its configuration. -/
theorem State.configure_good {s : State} (hok : s.driverOk) {l : Line} (c : ClockCfg) (hh : s.handle l ≠ none) :
    s.begin.configure l c =
      { s.begin.useScripted opConfigure with
        wCfg := if l = .dataOut then some c else s.wCfg
        rCfg := if l = .dataIn then some c else s.rCfg
        boot := if s.boot = configurePhase l then (configurePhase l).next else s.boot
        ret := .status 0 } := by
  have hst : s.begin.callStatus opConfigure (s.begin.handle l).isSome = 0 := by
    rw [Option.isSome_iff_ne_none.2 (show s.begin.handle l ≠ none from hh)]
    exact State.driverOk_callStatus (State.driverOk_begin hok) _
  rw [State.configure_eq, hst]
  simp only [true_and, if_true]
  rfl

/-- Once its call has returned, the marker has its handle. -/
theorem AgentForm.marker_open {s t : State} (h : AgentForm s t) (hok : s.driverOk)
    (hs : s.boot ≠ .openMarker → s.hMarker ≠ none) : t.boot ≠ .openMarker → t.hMarker ≠ none := by
  rcases h.boot with ⟨hboot, hmarker, -⟩ | ⟨l, hb, rfl⟩ | ⟨l, c, hl, -, hb, rfl⟩
  · rw [hboot, hmarker]
    exact hs
  · rw [State.openLine_good hok]
    intro _
    cases l with
    | marker => exact Option.some_ne_none _
    | dataOut => exact hs (by rw [hb]; decide)
    | dataIn => exact hs (by rw [hb]; decide)
  · rw [State.configure_eq]
    intro _
    cases l with
    | marker => exact absurd rfl hl
    | dataOut => exact hs (by rw [hb]; decide)
    | dataIn => exact hs (by rw [hb]; decide)

/-! The marker line. -/

/-- The marker line is high exactly in XFER and MARKER_DEASSERTED. -/
def State.bracketed (s : State) : Prop :=
  s.marker = true ↔ s.st = stXferCode ∨ s.st = stMarkerDeassertedCode

/-- With every WRITE_IMM good, the FSM raises the marker into XFER and lowers it out of MARKER_DEASSERTED. -/
theorem FsmForm.bracketed {s t : State} (h : FsmForm s t) (hgood : s.begin.writeImmStatus = 0)
    (hs : s.bracketed) : t.bracketed := by
  unfold State.bracketed at hs ⊢
  cases h
  -- the marker stays low
  case idleExit hst _ => simp [hs, hst]
  case idleCapture hst => simp [hs, hst]
  case idleStay hst => simp [hs, hst]
  case verify v q t0 hst => rw [State.verify_eq]; simp [hs, hst]
  -- it is driven
  case assert => rw [State.assertMarker_eq]; simp [(State.markerAfter_cases _ _ _).1 hgood]
  case deassert => rw [State.deassertMarker_eq]; simp [(State.markerAfter_cases _ _ _).1 hgood]
  -- it stays high
  case arm => rw [State.armWrite_eq]; exact hs
  case start => exact hs
  case complete => exact hs
  case stopWrite => rw [State.stopWriteChannel_eq]; exact hs
  case stopRead hst _ => rw [State.stopReadChannel_eq]; simp [hs, hst]

/-- The other agents write neither the marker nor `st`. -/
theorem AgentForm.bracketed {s t : State} (h : AgentForm s t)
    (hgood : s.boot = .released → s.begin.writeImmStatus = 0) (hs : s.bracketed) : t.bracketed := by
  cases h
  case fsm hb hform => exact hform.bracketed (hgood hb) hs
  case openLine => rw [State.openLine_eq]; exact hs
  case configure => rw [State.configure_eq]; exact hs
  all_goals exact hs

/-- Once boot has released the FSM, its WRITE_IMM succeeds. -/
theorem MarkerBracket.writeImm_good {s : State} (hs : MarkerBracket s) (hb : s.boot = .released) :
    s.begin.writeImmStatus = 0 :=
  State.callStatus_good hs.driver _ (State.usable_marker.2 (hs.marker_open (by rw [hb]; decide)))

theorem MarkerBracket.takeFetch {s : State} (hs : MarkerBracket s) : MarkerBracket s.takeFetch where
  written := hs.written.takeFetch
  driver := hs.driver
  no_preset := hs.no_preset
  marker_open := hs.marker_open
  released_first := hs.released_first
  bracket := hs.bracket

/-- A turn keeps the marker's bracket. -/
theorem AgentForm.markerBracket {s t : State} (h : AgentForm s t) (hs : MarkerBracket s)
    (hw : WrittenBeforeRead t) : MarkerBracket t where
  written := hw
  driver := h.driverOk hs.driver
  no_preset := by
    rcases h.env hs.driver with henv | henv <;> rw [henv]
    · exact hs.no_preset
    · rfl
  marker_open := h.marker_open hs.driver hs.marker_open
  released_first := h.released_first hs.released_first
  bracket := h.bracketed hs.writeImm_good hs.bracket

/-- A reset keeps it too: the marker is low and the FSM in IDLE (R42, R151). -/
theorem State.afterReset_markerBracket {s : State} (hs : MarkerBracket s) (hw : WrittenBeforeRead s.begin.afterReset) :
    MarkerBracket s.begin.afterReset where
  written := hw
  driver := hs.driver
  no_preset := hs.no_preset
  marker_open h := absurd rfl h
  released_first _ := rfl
  bracket := iff_of_false Bool.false_ne_true (by simp)

theorem step_markerBracket {s t : State} (hs : MarkerBracket s) (h : step s = .next t) : MarkerBracket t := by
  have hw := step_written hs.written h
  rcases step_agent_form hs.written.block_run h with ⟨-, rfl⟩ | hform
  · exact State.afterReset_markerBracket hs.takeFetch hw
  · exact hform.markerBracket hs.takeFetch hw

/-- Settles O56: it holds, turn by turn of the block's own agents. -/
theorem markerBracketKept : Obligations.MarkerBracketKept := by
  unfold Obligations.MarkerBracketKept
  exact fun s t => step_markerBracket

/-! Changes of `dout`. -/

/-- With no `PRE` pending, no action of the FSM changes `dout`. -/
theorem FsmForm.dout {s t : State} (h : FsmForm s t) (hpre : s.env.pre = none) : t.dout = s.dout := by
  cases h
  case start => exact congrArg (fun d => Option.getD d s.dout) hpre
  case assert => rw [State.assertMarker_eq]; rfl
  case arm => rw [State.armWrite_eq]; rfl
  case stopWrite => rw [State.stopWriteChannel_eq]; rfl
  case stopRead => rw [State.stopReadChannel_eq]; rfl
  case deassert => rw [State.deassertMarker_eq]; rfl
  case verify => rw [State.verify_eq]; rfl
  all_goals rfl

/-- So only an edge changes it, while the engine runs. -/
theorem AgentForm.dout {s t : State} (h : AgentForm s t) (hpre : s.env.pre = none) :
    t.dout = s.dout ∨ s.engRun = true ∧ t.st = s.st := by
  cases h
  case fsm _ hform => exact .inl (hform.dout hpre)
  case edge d he _ _ _ => exact .inr ⟨he, rfl⟩
  case openLine => rw [State.openLine_eq]; exact .inl rfl
  case configure => rw [State.configure_eq]; exact .inl rfl
  all_goals exact .inl rfl

/-- Settles O57: it holds, an edge coming in XFER only. -/
theorem doutChangesInsideBracket : Obligations.DoutChangesInsideBracket := by
  unfold Obligations.DoutChangesInsideBracket
  intro s t hs hnr h hne
  rcases step_agent_form hs.written.block_run h with ⟨hreset, -⟩ | hform
  · exact absurd hreset hnr
  · rcases hform.dout hs.no_preset with hsame | ⟨he, hst⟩
    · exact absurd hsame hne
    · have hxfer : s.st = stXferCode := (hs.written.running_wait he).1
      exact ⟨hs.bracket.2 (.inl hxfer), (step_markerBracket hs h).bracket.2 (.inl (hst.trans hxfer))⟩

end Sys2Proof.Machine
end

section
/-!
PROOF. The boot sequence call by call (R152, R153): what each call writes, that under DRIVER_OK every call succeeds,
and that BOOT_DONE says the same of the statuses as of the registers.
-/

namespace Sys2Proof.Machine

/-! What a call of the boot sequence writes. -/

/-- The register that a call of the boot sequence writes when it succeeds is written. -/
def State.bootHeld (s : State) : BootPhase → Prop
  | .openMarker => s.hMarker ≠ none
  | .openDataOut => s.hDout ≠ none
  | .openDataIn => s.hDin ≠ none
  | .configureDataOut => s.wCfg = s.params.legalCfg .dataOut
  | .configureDataIn => s.rCfg = s.params.legalCfg .dataIn
  | .released => False

/-- The calls that boot has made have succeeded. -/
def State.callsHeld (s : State) : Prop := ∀ p : BootPhase, p.index < s.boot.index → s.bootHeld p

/-- The calls that boot has not made yet have left nothing. -/
def State.callsPending (s : State) : Prop := ∀ p : BootPhase, s.boot.index ≤ p.index → ¬ s.bootHeld p

/-- What the calls have written is what makes a channel usable (R122). -/
theorem State.usable_iff_bootHeld {s : State} :
    (s.usable .marker = true ↔ s.bootHeld .openMarker) ∧
      (s.usable .dataOut = true ↔ s.bootHeld .openDataOut ∧ s.bootHeld .configureDataOut) ∧
      (s.usable .dataIn = true ↔ s.bootHeld .openDataIn ∧ s.bootHeld .configureDataIn) :=
  ⟨State.usable_marker, State.usable_eq_true, State.usable_eq_true⟩

theorem State.bootHeld_congr {s t : State} (h : s.sameBoot t) (hp : t.params = s.params) (p : BootPhase) :
    t.bootHeld p ↔ s.bootHeld p := by
  obtain ⟨-, hmarker, hdout, hdin, hw, hr⟩ := h
  cases p <;> simp [State.bootHeld, hmarker, hdout, hdin, hw, hr, hp]

/-- OPEN_LINE writes its handle when it succeeds, and nothing else of the boot sequence (R123). -/
theorem State.bootHeld_openLine (s : State) (l : Line) (p : BootPhase) :
    (s.begin.openLine l).bootHeld p ↔ s.bootHeld p ∨ p = openPhase l ∧ s.begin.rawStatus opOpenLine = 0 := by
  rw [State.openLine_eq]
  by_cases hst : s.begin.rawStatus opOpenLine = 0 <;> cases l <;> cases p <;>
    simp [State.bootHeld, openPhase, hst]

/-- CONFIGURE writes the block's own configuration when it succeeds, and nothing else of the boot sequence (R124). -/
theorem State.bootHeld_configure {s : State} {l : Line} {c : ClockCfg} (hc : s.params.legalCfg l = some c)
    (p : BootPhase) :
    (s.begin.configure l c).bootHeld p ↔
      s.bootHeld p ∨ p = configurePhase l ∧ s.begin.callStatus opConfigure (s.handle l).isSome = 0 := by
  rw [State.configure_eq]
  have hhandle : s.begin.handle l = s.handle l := by cases l <;> rfl
  rw [hhandle]
  by_cases hst : s.begin.callStatus opConfigure (s.handle l).isSome = 0
  · cases l with
    | marker => cases hc
    | dataOut => cases p <;> simp [State.bootHeld, configurePhase, hst, hc]
    | dataIn => cases p <;> simp [State.bootHeld, configurePhase, hst, hc]
  · cases p <;> simp [State.bootHeld, hst]

/-! A turn of the boot sequence. -/

/-- The turn made the call of phase `p`, which returned `st`. -/
structure BootCall (s t : State) (p : BootPhase) (st : DriverStatus) : Prop where
  phase : s.boot = p
  unreleased : p ≠ .released
  next : t.boot = p.next
  held : ∀ r, t.bootHeld r ↔ s.bootHeld r ∨ r = p ∧ st = 0
  returned : t.ret = .opened st (st == 0) ∨ t.ret = .status st
  /-- Under DRIVER_OK the call succeeds, once those before it have. -/
  good : s.driverOk → s.callsHeld → st = 0

theorem bootCall_openLine {s : State} {l : Line} (hb : s.boot = openPhase l) :
    BootCall s (s.begin.openLine l) (openPhase l) (s.begin.rawStatus opOpenLine) where
  phase := hb
  unreleased := openPhase_ne_released l
  next := by rw [State.openLine_eq]; exact if_pos hb
  held := s.bootHeld_openLine l
  returned := by rw [State.openLine_eq]; exact .inl rfl
  good hok _ := State.driverOk_rawStatus (State.driverOk_begin hok) _

/-- A channel is opened before it is configured. -/
theorem State.callsHeld.handle {s : State} (h : s.callsHeld) {l : Line} (hl : l ≠ .marker)
    (hb : s.boot = configurePhase l) : s.handle l ≠ none := by
  unfold State.callsHeld at h
  rw [hb] at h
  cases l with
  | marker => exact absurd rfl hl
  | dataOut => exact h .openDataOut (by decide)
  | dataIn => exact h .openDataIn (by decide)

theorem bootCall_configure {s : State} {l : Line} {c : ClockCfg} (hl : l ≠ .marker)
    (hc : s.params.legalCfg l = some c) (hb : s.boot = configurePhase l) :
    BootCall s (s.begin.configure l c) (configurePhase l) (s.begin.callStatus opConfigure (s.handle l).isSome) where
  phase := hb
  unreleased := configurePhase_ne_released hl
  next := by rw [State.configure_eq]; exact if_pos hb
  held := State.bootHeld_configure hc
  returned := by
    have hhandle : s.begin.handle l = s.handle l := by cases l <;> rfl
    rw [State.configure_eq, hhandle]
    exact .inr rfl
  good hok hs := by
    rw [Option.isSome_iff_ne_none.2 (hs.handle hl hb)]
    exact State.driverOk_callStatus (State.driverOk_begin hok) _

/-- A turn of the block's own agents leaves the boot sequence alone or makes its next call. -/
theorem AgentForm.bootCall {s t : State} (h : AgentForm s t) : s.sameBoot t ∨ ∃ p st, BootCall s t p st := by
  rcases h.boot with hsame | ⟨l, hb, rfl⟩ | ⟨l, c, hl, hc, hb, rfl⟩
  · exact .inl hsame
  · exact .inr ⟨_, _, bootCall_openLine hb⟩
  · exact .inr ⟨_, _, bootCall_configure hl hc hb⟩

theorem BootPhase.index_injective : ∀ p r : BootPhase, p.index = r.index → p = r := by
  intro p r h
  cases p <;> cases r <;> simp_all [BootPhase.index]

/-- Each call moves the boot sequence on by one. -/
theorem BootPhase.index_next {p : BootPhase} (h : p ≠ .released) : p.next.index = p.index + 1 := by
  cases p <;> simp_all [BootPhase.next, BootPhase.index]

/-- A call that succeeds keeps the calls made so far good. -/
theorem BootCall.callsHeld {s t : State} {p : BootPhase} {st : DriverStatus} (h : BootCall s t p st)
    (hs : s.callsHeld) (hst : st = 0) : t.callsHeld := by
  intro r hr
  rw [h.next, BootPhase.index_next h.unreleased] at hr
  by_cases hrp : r = p
  · exact (h.held r).2 (.inr ⟨hrp, hst⟩)
  · have hne : r.index ≠ p.index := fun heq => hrp (BootPhase.index_injective r p heq)
    exact (h.held r).2 (.inl (hs r (by rw [h.phase]; omega)))

/-- The calls made so far are good exactly when those before were and this one is. -/
theorem BootCall.callsHeld_iff {s t : State} {p : BootPhase} {st : DriverStatus} (h : BootCall s t p st)
    (hs : s.callsPending) : t.callsHeld ↔ s.callsHeld ∧ st = 0 := by
  refine ⟨fun ht => ⟨fun r hr => ?_, ?_⟩, fun ⟨hheld, hst⟩ => h.callsHeld hheld hst⟩
  all_goals
    unfold State.callsHeld at ht
    rw [h.next, BootPhase.index_next h.unreleased] at ht
  · rw [h.phase] at hr
    rcases (h.held r).1 (ht r (by omega)) with hheld | ⟨rfl, -⟩
    · exact hheld
    · omega
  · rcases (h.held p).1 (ht p (by omega)) with hheld | ⟨-, hst⟩
    · exact absurd hheld (hs p (by rw [h.phase]))
    · exact hst

/-- The calls after it have left nothing, as before it. -/
theorem BootCall.callsPending {s t : State} {p : BootPhase} {st : DriverStatus} (h : BootCall s t p st)
    (hs : s.callsPending) : t.callsPending := by
  intro r hr hheld
  rw [h.next, BootPhase.index_next h.unreleased] at hr
  rcases (h.held r).1 hheld with hheld | ⟨rfl, -⟩
  · exact hs r (by rw [h.phase]; omega) hheld
  · omega

/-- Under DRIVER_OK every turn keeps the calls made so far good. -/
theorem AgentForm.callsHeld {s t : State} (h : AgentForm s t) (hok : s.driverOk) (hp : t.params = s.params)
    (hs : s.callsHeld) : t.callsHeld := by
  rcases h.bootCall with hsame | ⟨p, st, hcall⟩
  · intro r hr
    exact (State.bootHeld_congr hsame hp r).2 (hs r (hsame.1 ▸ hr))
  · exact hcall.callsHeld hs (hcall.good hok hs)

/-- Once boot has released the FSM, every channel is usable exactly when all five calls have succeeded. -/
theorem State.bootGood_iff {s : State} (hb : s.boot = .released) : s.bootGood ↔ s.callsHeld := by
  obtain ⟨hmarker, hdout, hdin⟩ := s.usable_iff_bootHeld
  constructor
  · rintro ⟨-, hu⟩ p hp
    obtain ⟨hout, hcfgOut⟩ := hdout.1 (hu .dataOut)
    obtain ⟨hin, hcfgIn⟩ := hdin.1 (hu .dataIn)
    cases p with
    | openMarker => exact hmarker.1 (hu .marker)
    | openDataOut => exact hout
    | openDataIn => exact hin
    | configureDataOut => exact hcfgOut
    | configureDataIn => exact hcfgIn
    | released => exact absurd (hb ▸ hp) (by decide)
  · intro h
    unfold State.callsHeld at h
    rw [hb] at h
    refine ⟨hb, fun l => ?_⟩
    cases l with
    | marker => exact hmarker.2 (h .openMarker (by decide))
    | dataOut => exact hdout.2 ⟨h .openDataOut (by decide), h .configureDataOut (by decide)⟩
    | dataIn => exact hdin.2 ⟨h .openDataIn (by decide), h .configureDataIn (by decide)⟩

end Sys2Proof.Machine
end

section
/-!
PROOF. Under DRIVER_OK, DRIVER_COMPLETES and LOOPBACK_IDEAL a transfer reads back what it sends (R113, R133): every call
of the transfer succeeds, and each edge samples what the edge before it drove.
-/

namespace Sys2Proof.Machine

/-! The transfer. -/

/-- The part of `RoundTrip` that speaks of the transfer in flight. -/
structure TransferGood (s : State) : Prop where
  clean : s.wrDirty = false ∧ s.rdDirty = false
  no_error : s.inTransfer → s.cycErr = false
  armed : ∀ v, s.cap = some v → s.st = stXferCode → s.xs = xsStartCode ∨ s.xs = xsWaitCode →
    s.wrArmed = true ∧ s.lateWrite = false ∧ s.tx = some (encoderSeq v s.params.R)
  read_issued : s.st = stXferCode → s.xs = xsWaitCode → ∃ c, s.rdCall = some c ∧ c.status = 0
  line : ∀ v, s.cap = some v → s.st = stXferCode → s.xs = xsWaitCode → 1 ≤ s.k →
    (encoderSeq v s.params.R)[min s.k (physLen s.params.R) - 1]? = some s.dout
  samples : ∀ v, s.cap = some v → s.afterStart → ∀ j, 1 ≤ j → j < s.k →
    s.rx[j]? = ((encoderSeq v s.params.R)[j - 1]?).map some

theorem RoundTrip.transfer {s : State} (hs : RoundTrip s) : TransferGood s where
  clean := hs.clean
  no_error := hs.no_error
  armed := hs.armed
  read_issued := hs.read_issued
  line := hs.line
  samples := hs.samples

/-- The calls that boot has made have succeeded. -/
theorem RoundTrip.callsHeld {s : State} (hs : RoundTrip s) : s.callsHeld := by
  obtain ⟨hmarker, hdout, hdin⟩ := s.usable_iff_bootHeld
  intro p hp
  cases p with
  | openMarker => exact hmarker.1 (hs.boot_marker hp)
  | openDataOut => exact hs.boot_dout hp
  | openDataIn => exact hs.boot_din hp
  | configureDataOut => exact (hdout.1 (hs.boot_write hp)).2
  | configureDataIn => exact (hdin.1 (hs.boot_read hp)).2
  | released => exact absurd hp (by cases s.boot <;> decide)

/-- The parts make the whole. -/
theorem RoundTrip.of_parts {s : State} (hw : WrittenBeforeRead s) (hd : s.driverGood) (hl : s.loopbackGood)
    (hb : s.callsHeld) (hr : s.boot ≠ .released → s.st = stIdleCode) (ht : TransferGood s) : RoundTrip s where
  written := hw
  driver := hd
  loopback := hl
  clean := ht.clean
  boot_marker h := s.usable_iff_bootHeld.1.2 (hb .openMarker h)
  boot_dout h := hb .openDataOut h
  boot_din h := hb .openDataIn h
  boot_write h := s.usable_iff_bootHeld.2.1.2
    ⟨hb .openDataOut (lt_of_lt_of_le (by decide) h), hb .configureDataOut h⟩
  boot_read h := s.usable_iff_bootHeld.2.2.2
    ⟨hb .openDataIn (lt_of_lt_of_le (by decide) h), hb .configureDataIn h⟩
  released_first := hr
  no_error := ht.no_error
  armed := ht.armed
  read_issued := ht.read_issued
  line := ht.line
  samples := ht.samples

/-- Outside START and WAIT no write waits for its read and no read is outstanding, so only the samples taken count. -/
theorem TransferGood.of_unarmed {t : State} (hclean : t.wrDirty = false ∧ t.rdDirty = false)
    (hcyc : t.inTransfer → t.cycErr = false)
    (hno : t.st = stXferCode → t.xs ≠ xsStartCode ∧ t.xs ≠ xsWaitCode)
    (hsamples : ∀ v, t.cap = some v → t.afterStart → ∀ j, 1 ≤ j → j < t.k →
      t.rx[j]? = ((encoderSeq v t.params.R)[j - 1]?).map some) : TransferGood t where
  clean := hclean
  no_error := hcyc
  armed _ _ hst hxs := hxs.elim (fun h => absurd h (hno hst).1) (fun h => absurd h (hno hst).2)
  read_issued hst hxs := absurd hxs (hno hst).2
  line _ _ hst hxs _ := absurd hxs (hno hst).2
  samples := hsamples

/-- Before the write is armed no sample counts either. -/
theorem TransferGood.of_before {t : State} (hclean : t.wrDirty = false ∧ t.rdDirty = false)
    (hcyc : t.inTransfer → t.cycErr = false)
    (h : t.st = stIdleCode ∨ t.st = stExitedCode ∨ t.st = stMarkerAssertedCode ∨
      t.st = stXferCode ∧ t.xs = xsArmCode) : TransferGood t := by
  have hbefore : ¬ t.afterStart :=
    State.not_afterStart (h.imp_right (Or.imp_right (Or.imp_right (And.imp_right .inl))))
  refine .of_unarmed hclean hcyc (fun hst => ?_) (fun v _ hafter => absurd hafter hbefore)
  rcases h with h | h | h | ⟨-, hxs⟩
  · exact absurd (hst.symm.trans h) (by decide)
  · exact absurd (hst.symm.trans h) (by decide)
  · exact absurd (hst.symm.trans h) (by decide)
  · rw [hxs]
    decide

/-- A successful WRITE_CLK on the clean channel arms the sequence of the captured value (R98). -/
theorem TransferGood.armWrite {s : State} {v : Word} (hs : TransferGood s) (hst : s.st = stXferCode)
    (hv : s.cap = some v) (hgood : s.begin.writeClkStatus = 0) (hoff : s.engRun = false) :
    TransferGood (s.begin.armWrite v) := by
  rw [State.armWrite_eq, hgood]
  have hcyc : s.cycErr = false := hs.no_error (State.inTransfer_of hst (by decide))
  refine ⟨hs.clean, fun _ => hcyc, fun w hw _ _ => ?_, fun _ hxs => ?_, fun _ _ _ hxs => ?_, fun _ _ hafter => ?_⟩
  · obtain rfl : v = w := Option.some.inj (hv.symm.trans hw)
    exact ⟨State.armedAfter_good rfl hs.clean.1, hoff, rfl⟩
  · exact absurd hxs (by simp)
  · exact absurd hxs (by simp)
  · exact absurd hafter (State.not_afterStart (.inr (.inr (.inr ⟨hst, .inr rfl⟩))))

/-- The issue of a read that will succeed (R99): no edge is taken yet. -/
theorem TransferGood.start {s : State} (hs : TransferGood s) (hst : s.st = stXferCode) (hxs : s.xs = xsStartCode)
    (hgood : s.begin.newReadCall.status = 0) :
    TransferGood { s.begin.readClkIssue with busy := true, xs := xsWaitCode } where
  clean := hs.clean
  no_error := hs.no_error
  armed v hv _ _ := by
    obtain ⟨harmed, -, htx⟩ := hs.armed v hv hst (.inl hxs)
    exact ⟨harmed, rfl, htx⟩
  read_issued _ _ := ⟨_, rfl, hgood⟩
  line _ _ _ _ hk := absurd hk (Nat.not_succ_le_zero 0)
  samples _ _ _ j _ hj := absurd hj (Nat.not_lt_zero j)

/-- The outstanding read succeeds. -/
theorem TransferGood.readCall_good {s : State} (hs : TransferGood s) (hst : s.st = stXferCode)
    (hxs : s.xs = xsWaitCode) : s.begin.readCall.status = 0 := by
  obtain ⟨c, hc, hstatus⟩ := hs.read_issued hst hxs
  rw [State.readCall_of_some (s := s.begin) hc, hstatus]

/-- The completion of a read that succeeded leaves the samples (R100). -/
theorem TransferGood.waitDone {s : State} {q : Digits} (hs : TransferGood s) (hst : s.st = stXferCode)
    (hxs : s.xs = xsWaitCode) (hq : s.begin.rxAfter = q.map some) : TransferGood (s.begin.waitDone q) := by
  have hgood := hs.readCall_good hst hxs
  have hrx : s.rx = q.map some := (State.rxAfter_good (s := s.begin) hgood hs.clean.2).symm.trans hq
  refine .of_unarmed hs.clean (fun _ => ?_) (fun _ => by simp) (fun v hv _ => ?_)
  · simp only [State.waitDone, hgood, if_true]
    exact hs.no_error (State.inTransfer_of hst (by decide))
  · rw [show (s.begin.waitDone q).rx = s.rx from hrx.symm]
    exact hs.samples v hv (.inl ⟨hst, by rw [hxs]; decide⟩)

/-- An action after the read that succeeds keeps the samples. -/
theorem TransferGood.of_after {s t : State} (hs : TransferGood s) (hin : s.inTransfer) (hafter : s.afterStart)
    (hclean : t.wrDirty = false ∧ t.rdDirty = false) (hcyc : t.cycErr = s.cycErr)
    (hno : t.st = stXferCode → t.xs ≠ xsStartCode ∧ t.xs ≠ xsWaitCode) (hcap : t.cap = s.cap) (hk : t.k = s.k)
    (hrx : t.rx = s.rx) (hp : t.params = s.params) : TransferGood t := by
  refine .of_unarmed hclean (fun _ => hcyc.trans (hs.no_error hin)) hno fun v hv _ => ?_
  rw [hk, hrx, hp]
  exact hs.samples v (hcap ▸ hv) hafter

/-- Every action of the FSM keeps the transfer good when its call succeeds. -/
theorem FsmForm.transferGood {s t : State} (h : FsmForm s t) (hok : s.driverOk) (hu : ∀ l, s.usable l = true)
    (hw : RegistersWritten s) (hs : TransferGood s) : TransferGood t := by
  have hstatus : ∀ op l, s.begin.callStatus op (s.begin.usable l) = 0 :=
    fun op l => State.callStatus_good hok op (hu l)
  cases h
  -- before the write is armed
  case idleExit => exact .of_before hs.clean (fun hin => absurd rfl hin.2) (.inr (.inl rfl))
  case idleCapture => exact .of_before hs.clean (fun _ => rfl) (.inr (.inr (.inl rfl)))
  case idleStay => exact .of_before hs.clean (fun hin => absurd rfl hin.1) (.inl rfl)
  case assert hst =>
    rw [State.assertMarker_eq, show s.begin.writeImmStatus = 0 from hstatus _ _]
    have hcyc : s.cycErr = false := hs.no_error (State.inTransfer_of hst (by decide))
    exact .of_before hs.clean (fun _ => hcyc) (.inr (.inr (.inr ⟨rfl, rfl⟩)))
  -- ARM, START and WAIT
  case arm v hst hxs hv =>
    exact hs.armWrite hst hv (hstatus _ _) (hw.engine_off (.inr (by rw [hxs]; decide)))
  case start hst hxs => exact hs.start hst hxs (hstatus _ _)
  case complete q hst hxs _ hq => exact hs.waitDone hst hxs hq
  -- after the read
  case stopWrite hst hxs =>
    rw [State.stopWriteChannel_eq, show s.begin.stopClkStatus .dataOut = 0 from hstatus _ _]
    exact hs.of_after (State.inTransfer_of hst (by decide)) (.inl ⟨hst, by rw [hxs]; decide⟩) ⟨rfl, hs.clean.2⟩ rfl
      (fun _ => ⟨by simp, by simp⟩) rfl rfl rfl rfl
  case stopRead hst hxs =>
    rw [State.stopReadChannel_eq, show s.begin.stopClkStatus .dataIn = 0 from hstatus _ _]
    exact hs.of_after (State.inTransfer_of hst (by decide)) (.inl ⟨hst, by rw [hxs]; decide⟩) ⟨hs.clean.1, rfl⟩ rfl
      (fun hmd => absurd hmd (by simp)) rfl rfl rfl rfl
  case deassert hst =>
    rw [State.deassertMarker_eq, show s.begin.writeImmStatus = 0 from hstatus _ _]
    exact hs.of_after (State.inTransfer_of hst (by decide)) (.inr (.inl hst)) hs.clean rfl
      (fun hv => absurd hv (by simp)) rfl rfl rfl rfl
  case verify v q t0 hst =>
    rw [State.verify_eq]
    exact .of_before hs.clean (fun hin => absurd rfl hin.1) (.inl rfl)

/-! An edge. -/

/-- Under LOOPBACK_IDEAL a sample after the first is the level before the edge (R130). -/
theorem State.sampleDin_loopback {s : State} (hl : s.loopbackGood) (hk : 1 ≤ s.k) : s.sampleDin = s.dout := by
  obtain ⟨hloop, hflip, -⟩ := hl
  rw [State.sampleDin_of_no_preset (.inl hk), if_pos hloop, hflip]
  simp

/-- The samples of a good read on a clean channel are known. -/
theorem TransferGood.readKnown {s : State} (hs : TransferGood s) (hst : s.st = stXferCode)
    (hxs : s.xs = xsWaitCode) : s.readUnknown = false := by
  obtain ⟨c, hc, hstatus⟩ := hs.read_issued hst hxs
  simp [State.readUnknown, hs.clean.2, hc, hstatus]

/-- The level an edge of a good transfer leaves is that of its digit, or, after the last digit, the last one. -/
theorem TransferGood.driven {s : State} {v : Word} {d : Bool} (hs : TransferGood s) (hst : s.st = stXferCode)
    (hxs : s.xs = xsWaitCode) (hv : s.cap = some v) (hR : 1 ≤ s.params.R) (hd : s.begin.driveLevel = .ok d) :
    (encoderSeq v s.params.R)[min (s.k + 1) (physLen s.params.R) - 1]? = some d := by
  obtain ⟨harmed, hlate, htx⟩ := hs.armed v hv hst (.inr hxs)
  rcases State.driveLevel_ok hd with ⟨-, -, hk, t, ht, hdigit⟩ | ⟨hkeeps, hdout⟩
  · obtain rfl : encoderSeq v s.params.R = t := Option.some.inj (htx.symm.trans ht)
    replace hk : s.k < physLen s.params.R := hk
    rw [min_eq_left (by omega), Nat.add_sub_cancel]
    exact hdigit
  · have hk : physLen s.params.R ≤ s.k := by
      rcases hkeeps with h | h | h
      · exact absurd (harmed.symm.trans h) (by decide)
      · exact absurd (hlate.symm.trans h) (by decide)
      · exact h
    have hpos : 1 ≤ s.k := le_trans (show 1 ≤ physLen s.params.R by show 1 ≤ 68 * s.params.R; omega) hk
    have hline := hs.line v hv hst hxs hpos
    rw [min_eq_right hk] at hline
    rw [min_eq_right (by omega), hline, hdout]
    rfl

/-- An edge samples what the edge before it drove, then drives the next digit (R129, R133). -/
theorem TransferGood.edgeTo {s : State} {d : Bool} (hs : TransferGood s) (hst : s.st = stXferCode)
    (hxs : s.xs = xsWaitCode) (hR : 1 ≤ s.params.R) (hl : s.loopbackGood) (hk : s.k ≤ physLen s.params.R)
    (hlen : s.k < s.rx.length) (hd : s.begin.driveLevel = .ok d) : TransferGood (s.begin.edgeTo d) := by
  have hknown : s.begin.readUnknown = false := hs.readKnown hst hxs
  refine ⟨hs.clean, hs.no_error, hs.armed, hs.read_issued, fun v hv _ _ _ => ?line,
    fun v hv hafter j hj hjk => ?samples⟩
  case line =>
    rw [State.edgeTo, hknown]
    exact hs.driven hst hxs hv hR hd
  case samples =>
    show (s.rx.set s.k (some s.begin.sampleDin))[j]? = _
    replace hjk : j < s.k + 1 := hjk
    by_cases hlast : j = s.k
    · subst hlast
      have hline := hs.line v hv hst hxs hj
      rw [min_eq_left hk] at hline
      rw [List.getElem?_set_self hlen, State.sampleDin_loopback (s := s.begin) hl hj]
      exact (congrArg (Option.map some) hline).symm
    · rw [List.getElem?_set_ne (Ne.symm hlast)]
      exact hs.samples v hv hafter j hj (by omega)

/-! A turn. -/

/-- Every turn keeps the transfer good. -/
theorem AgentForm.transferGood {s t : State} (h : AgentForm s t) (hs : RoundTrip s) : TransferGood t := by
  have ht := hs.transfer
  cases h
  case fsm hb hform =>
    exact hform.transferGood hs.driver.1 ((State.bootGood_iff hb).2 hs.callsHeld).2 hs.written.registers ht
  case edge d he hk hl hd =>
    obtain ⟨hst, hxs⟩ := hs.written.running_wait he
    exact ht.edgeTo hst hxs hs.written.repeat_legal hs.loopback hk hl hd
  case openLine =>
    rw [State.openLine_eq]
    exact ⟨ht.clean, ht.no_error, ht.armed, ht.read_issued, ht.line, ht.samples⟩
  case configure =>
    rw [State.configure_eq]
    exact ⟨ht.clean, ht.no_error, ht.armed, ht.read_issued, ht.line, ht.samples⟩
  -- a turn that waits, and the PRODUCER's turns
  all_goals exact ⟨ht.clean, ht.no_error, ht.armed, ht.read_issued, ht.line, ht.samples⟩

theorem RoundTrip.takeFetch {s : State} (hs : RoundTrip s) : RoundTrip s.takeFetch :=
  .of_parts hs.written.takeFetch hs.driver hs.loopback
    (fun p hp => (State.bootHeld_congr (t := s.takeFetch) ⟨rfl, rfl, rfl, rfl, rfl, rfl⟩ rfl p).2 (hs.callsHeld p hp))
    hs.released_first
    ⟨hs.clean, hs.no_error, hs.armed, hs.read_issued, hs.line, hs.samples⟩

/-- The premises outlive every turn: the issue of a read uses up the script's directives and nothing else. -/
theorem AgentForm.premises {s t : State} (h : AgentForm s t) (hd : s.driverGood) (hl : s.loopbackGood) :
    t.driverGood ∧ t.loopbackGood := by
  obtain ⟨hok, hc⟩ := hd
  obtain ⟨hloop, hnow, hnext⟩ := hl
  refine ⟨⟨h.driverOk hok, ?_⟩, ?_⟩
  · rw [State.driverCompletes]
    rcases h.env hok with henv | henv <;> rw [henv] <;> exact hc
  · rw [State.loopbackGood]
    rcases h.env hok with henv | henv <;> rw [henv]
    · exact ⟨hloop, hnow, hnext⟩
    · exact ⟨hloop, hnext, rfl⟩

theorem step_roundTrip {s t : State} (hs : RoundTrip s) (hnr : s.noReset) (h : step s = .next t) : RoundTrip t := by
  rcases step_agent_form hs.written.block_run h with ⟨hreset, -⟩ | hform
  · exact absurd hreset hnr
  · have hs' := hs.takeFetch
    obtain ⟨hd, hl⟩ := hform.premises hs'.driver hs'.loopback
    exact .of_parts (step_written hs.written h) hd hl
      (hform.callsHeld hs'.driver.1 (step_params h : t.params = s.params) hs'.callsHeld)
      (hform.released_first hs'.released_first) (hform.transferGood hs')

/-- Settles O58: it holds, turn by turn of the block's own agents. -/
theorem roundTripKept : Obligations.RoundTripKept := by
  unfold Obligations.RoundTripKept
  exact fun s t => step_roundTrip

/-! The record. -/

/-- In VERIFIED the read-back carries the captured value behind its leading digit. -/
theorem RoundTrip.carries {s : State} {v : Word} {q : Digits} (hs : RoundTrip s) (hst : s.st = stVerifiedCode)
    (hv : s.cap = some v) (hq : s.rx = q.map some) : carries q v s.params.R := by
  have hafter : s.afterStart := .inr (.inr hst)
  have hk := hs.written.edges_done hafter (hs.written.registers.engine_off (.inl (by rw [hst]; decide)))
  intro j hj
  have hsample := hs.samples v hv hafter (1 + j) (by omega) (by rw [hk, Nat.add_comm]; exact Nat.succ_lt_succ hj)
  rw [hq, List.getElem?_map, Nat.add_sub_cancel_left] at hsample
  exact Option.map_injective (Option.some_injective _) hsample

/-- Settles O59: it holds, the read-back decoding to the captured value. -/
theorem roundTripRecord : Obligations.RoundTripRecord := by
  unfold Obligations.RoundTripRecord
  intro s hs hst
  have hin : s.inTransfer := State.inTransfer_of hst (by decide)
  have hR := hs.written.repeat_legal
  obtain ⟨v, hv⟩ := Option.ne_none_iff_exists'.1 (hs.written.cap_written hin)
  obtain ⟨t0, ht⟩ := Option.ne_none_iff_exists'.1 (hs.written.start_written hin (by rw [hst]; decide))
  obtain ⟨q, hq, hlen⟩ := hs.written.rx_eq (.inr (.inr hst))
    (hs.written.registers.engine_off (.inl (by rw [hst]; decide)))
  have hvalue : decoderValue q s.begin.params.R = v := (hs.carries hst hv hq).decoderValue hR
  have hframe : decoderFrameOk q s.begin.params.R = true := (hs.carries hst hv hq).decoderFrameOk hR
  have hcyc : s.begin.cycErr = false := hs.no_error hin
  refine ⟨v, Config.freeLatency s.begin.tick t0, _, hv, exec_stVerified_of hs.written.legal.codesLegal hv hq ht hR hlen,
    ?_⟩
  rw [State.verify_eq, hvalue, hframe, hcyc]
  exact ⟨by simp, if_pos rfl, rfl⟩

end Sys2Proof.Machine
end

section
/-!
PROOF. The invariants hold after reset (R42).
-/

namespace Sys2Proof.Machine

/-- After reset no rule reads a register before it is written. -/
theorem writtenBeforeRead_of_reset {s : State} (hl : LegalState s) (hR : 1 ≤ s.params.R) (hq : s.queue = [])
    (hst : s.st = stIdleCode) (he : s.engRun = false) : WrittenBeforeRead s :=
  (RegistersWritten.of_outside (.inl hst) he).written hl hR fun w hw => by simp [hq] at hw

theorem writtenBeforeRead_atReset {p : Params} (d : Bool) (hR : 1 ≤ p.R) : WrittenBeforeRead (State.atReset p d) :=
  writtenBeforeRead_of_reset (legalState_atReset p d) hR rfl rfl rfl

theorem writtenBeforeRead_idealReset {p : Params} (d : Bool) (hR : 1 ≤ p.R) :
    WrittenBeforeRead (State.idealReset p d) :=
  writtenBeforeRead_of_reset ((legalState_atReset p d).of_unset rfl rfl rfl rfl rfl id id) hR rfl rfl rfl

theorem markerBracket_idealReset {p : Params} (d : Bool) (hR : 1 ≤ p.R) : MarkerBracket (State.idealReset p d) where
  written := writtenBeforeRead_idealReset d hR
  driver := ⟨rfl, rfl⟩
  no_preset := rfl
  marker_open h := absurd rfl h
  released_first _ := rfl
  bracket := iff_of_false Bool.false_ne_true (by simp [State.idealReset, State.atReset])

theorem roundTrip_idealReset {p : Params} (d : Bool) (hR : 1 ≤ p.R) : RoundTrip (State.idealReset p d) :=
  .of_parts (writtenBeforeRead_idealReset d hR) ⟨⟨rfl, rfl⟩, rfl⟩ ⟨rfl, rfl, rfl⟩
    (fun _ hp => absurd hp (Nat.not_lt_zero _)) (fun _ => rfl) (.of_before ⟨rfl, rfl⟩ (fun _ => rfl) (.inl rfl))

/-- Settles O55: it holds, each invariant from the table of R42. -/
theorem invariantsAtReset : Obligations.InvariantsAtReset := by
  unfold Obligations.InvariantsAtReset
  exact ⟨legalState_atReset _ _, writtenBeforeRead_atReset _ le_rfl, fun p d => ⟨legalState_atReset p d,
    fun hR => ⟨writtenBeforeRead_atReset d hR, markerBracket_idealReset d hR, roundTrip_idealReset d hR, id⟩⟩⟩

end Sys2Proof.Machine
end

section
/-!
PROOF. Boot releases the FSM (R152, R153): five good turns under the premises, the statuses of any run from a state
with nothing booted, and BOOT_DONE kept until a reset.
-/

namespace Sys2Proof.Machine

/-! Five turns of boot under DRIVER_OK and DRIVER_COMPLETES. -/

/-- The state with a turn at the head of the queue. -/
def State.pushTurn (s : State) (a : Turn) : State := { s with queue := .turn a :: s.queue }

/-- A turn at the head of the queue is no bare operation word, so the invariant holds with it. -/
theorem RoundTrip.pushTurn {s : State} (hs : RoundTrip s) (a : Turn) : RoundTrip (s.pushTurn a) := by
  have hblock : (s.pushTurn a).blockRun := fun w hw => by
    rcases List.mem_cons.1 hw with hw | hw
    · cases hw
    · exact hs.written.block_run w hw
  have hlegal : LegalState (s.pushTurn a) :=
    hs.written.legal.of_unset hs.written.legal.codesLegal rfl rfl rfl rfl id id
  have hregs : RegistersWritten (s.pushTurn a) := hs.written.registers.of_same rfl rfl rfl rfl rfl rfl rfl rfl
  exact .of_parts (hregs.written hlegal hs.written.repeat_legal hblock) hs.driver hs.loopback
    (fun p hp => (State.bootHeld_congr (t := s.pushTurn a) ⟨rfl, rfl, rfl, rfl, rfl, rfl⟩ rfl p).2 (hs.callsHeld p hp))
    hs.released_first ⟨hs.clean, hs.no_error, hs.armed, hs.read_issued, hs.line, hs.samples⟩

/-- Before the release boot has a call to make. -/
theorem State.exists_bootCall {s : State} (hb : s.boot ≠ .released) : ∃ i, s.bootCall = some i := by
  unfold State.bootCall
  split
  case h_6 h => exact absurd h hb
  all_goals exact ⟨_, rfl⟩

/-- Under the premises the call of boot's turn completes and succeeds. -/
theorem RoundTrip.exec_bootCall {s : State} {i : Instr} (hs : RoundTrip s) (hi : s.bootCall = some i) :
    ∃ t, exec i s = .next t ∧ t.boot = s.boot.next ∧ t.err = none ∧ t.st = s.st := by
  obtain ⟨hok, hc⟩ := hs.driver
  have hcall : ∀ op, s.begin.completes op = true := State.driverCompletes_completes hc
  rcases State.bootCall_cases hi with ⟨l, rfl, hb⟩ | ⟨l, c, rfl, hl, hcfg, hb⟩
  · refine ⟨_, exec_openLine_of l (hcall _), ?_⟩
    rw [State.openLine_good hok, if_pos hb, hb]
    exact ⟨rfl, rfl, rfl⟩
  · refine ⟨_, exec_configure_of hs.written.repeat_legal hcfg (hcall _), ?_⟩
    rw [State.configure_good hok c (hs.callsHeld.handle hl hb), if_pos hb, hb]
    exact ⟨rfl, rfl, rfl⟩

/-- One turn of boot. -/
theorem RoundTrip.boot_turn {s : State} (hs : RoundTrip s) (hb : s.boot ≠ .released) :
    ∃ t, s.happen (.turn .boot) = .next t ∧ RoundTrip t ∧ t.boot = s.boot.next ∧ t.err = none ∧ t.st = s.st := by
  obtain ⟨i, hi⟩ := State.exists_bootCall hb
  obtain ⟨t, hexec, hboot, herr, hst⟩ := hs.exec_bootCall hi
  have hfetched : (s.pushTurn .boot).fetched = .instr i :=
    (State.fetched_of_queue (s := s.pushTurn .boot) hs.written.repeat_legal rfl).trans
      (State.turnInstr_boot (s := s.pushTurn .boot) hi)
  have hstep : step (s.pushTurn .boot) = .next t := (step_of_instr hfetched).trans hexec
  have hnr : (s.pushTurn .boot).noReset := by
    rw [State.noReset, hfetched]
    rcases State.bootCall_cases hi with ⟨l, rfl, -⟩ | ⟨l, c, rfl, -⟩ <;> simp
  exact ⟨t, hstep, step_roundTrip (hs.pushTurn _) hnr hstep, hboot, herr, hst⟩

/-- As many turns of boot as there are calls left release the FSM. -/
theorem RoundTrip.boot_turns {s : State} (hs : RoundTrip s) (herr : s.err = none) {n : Nat}
    (hn : s.boot.index + n = 5) :
    ∃ t, s.turns .boot n = .next t ∧ RoundTrip t ∧ t.boot = .released ∧ t.err = none ∧ t.st = s.st := by
  induction n generalizing s with
  | zero => exact ⟨s, rfl, hs, BootPhase.index_injective _ _ hn, herr, rfl⟩
  | succ n ih =>
    have hb : s.boot ≠ .released := fun hb => by
      have hfive : s.boot.index = 5 := by rw [hb]; rfl
      omega
    obtain ⟨m, hm, hround, hboot, herr, hst⟩ := hs.boot_turn hb
    obtain ⟨t, ht, hround, hreleased, herr, hst'⟩ := ih hround herr (by
      rw [hboot, BootPhase.index_next hb]
      omega)
    exact ⟨t, by rw [State.turns, hm, Result.andThen_of_next, ht], hround, hreleased, herr, hst'.trans hst⟩

/-! The statuses of a run. -/

/-- A call that returned is counted with its status. -/
theorem BootCall.statuses {s t : State} {p : BootPhase} {st : DriverStatus} (h : BootCall s t p st) :
    s.bootStatuses t = [st] := by
  have hne : t.boot ≠ s.boot := fun heq => by
    have hindex := congrArg BootPhase.index heq
    rw [h.next, BootPhase.index_next h.unreleased, h.phase] at hindex
    omega
  rw [State.bootStatuses, if_neg hne]
  rcases h.returned with hret | hret <;> rw [hret]

/-- From a state in which boot has yet to write what it has not called for, the statuses to come are as many as the
calls left, and they and the calls made are all good exactly when every channel is usable in the end. -/
theorem BootRun.statuses_good {s t : State} {statuses : List DriverStatus} (h : BootRun s statuses t)
    (hblock : s.blockRun) (hpending : s.callsPending) (ht : t.boot = .released) :
    statuses.length + s.boot.index = 5 ∧ ((s.callsHeld ∧ ∀ st ∈ statuses, st = 0) ↔ t.bootGood) := by
  induction h with
  | done s => exact ⟨by rw [ht]; rfl, by simp [State.bootGood_iff ht]⟩
  | @next s m u statuses hnr hstep _ ih =>
    rcases step_agent_form hblock hstep with ⟨hreset, -⟩ | hform
    · exact absurd hreset hnr
    · have hparams : m.params = s.params := step_params hstep
      rcases hform.bootCall with hsame | ⟨p, st, hcall⟩
      · have hheld : ∀ p, m.bootHeld p ↔ s.bootHeld p := State.bootHeld_congr hsame hparams
        have hboot : m.boot = s.boot := hsame.1
        have hm : m.callsHeld ↔ s.callsHeld := by simp only [State.callsHeld, hboot, hheld]
        obtain ⟨hlen, hiff⟩ := ih (step_blockRun hblock hstep)
          (by simpa only [State.callsPending, hboot, hheld] using hpending) ht
        rw [State.bootStatuses, if_pos hboot, List.nil_append, ← hm, ← hboot]
        exact ⟨hlen, hiff⟩
      · obtain ⟨hlen, hiff⟩ := ih (step_blockRun hblock hstep) (hcall.callsPending hpending) ht
        have hphase : s.boot = p := hcall.phase
        rw [hcall.next, BootPhase.index_next hcall.unreleased] at hlen
        rw [hcall.callsHeld_iff hpending] at hiff
        rw [show s.bootStatuses m = [st] from hcall.statuses, ← hiff, hphase, List.singleton_append,
          List.length_cons]
        refine ⟨by omega, ?_⟩
        simp only [List.mem_cons, forall_eq_or_imp, and_assoc]
        rfl

/-- With nothing booted no call has been made, and none has left anything. -/
theorem State.booted_nothing {s : State} (hb : s.boot = .openMarker)
    (hnone : ∀ l, s.handle l = none ∧ s.clockCfg l = none) : s.callsHeld ∧ s.callsPending := by
  refine ⟨fun p hp => ?_, fun p _ hheld => ?_⟩
  · rw [hb] at hp
    exact absurd hp (Nat.not_lt_zero _)
  · cases p with
    | openMarker => exact hheld (hnone .marker).1
    | openDataOut => exact hheld (hnone .dataOut).1
    | openDataIn => exact hheld (hnone .dataIn).1
    | configureDataOut => cases (hnone .dataOut).2.symm.trans hheld
    | configureDataIn => cases (hnone .dataIn).2.symm.trans hheld
    | released => exact hheld

/-! BOOT_DONE stays. -/

/-- No instruction but RESET undoes BOOT_DONE, a bare OPEN_LINE or CONFIGURE included (R153; log entry 12). -/
theorem exec_bootGood {s t : State} {i : Instr} (hs : s.bootGood) (hne : i ≠ .reset) (h : exec i s = .next t) :
    t.bootGood := by
  obtain ⟨hb, -⟩ := id hs
  have hheld := (State.bootGood_iff hb).1 hs
  have hmono : t.boot = s.boot → (∀ p, s.bootHeld p → t.bootHeld p) → t.bootGood := fun hboot hkeep =>
    (State.bootGood_iff (hboot.trans hb)).2 fun p hp => hkeep p (hheld p (hboot ▸ hp))
  rcases exec_boot h with hsame | hreset | ⟨l, rfl, rfl⟩ | ⟨l, c, rfl, hc, rfl⟩
  · exact hmono hsame.1 fun p => (State.bootHeld_congr hsame (exec_params h) p).2
  · exact absurd hreset hne
  · refine hmono ?_ fun p hp => (s.bootHeld_openLine l p).2 (.inl hp)
    rw [State.openLine_eq]
    exact if_neg fun hphase => openPhase_ne_released l (hphase.symm.trans hb)
  · refine hmono ?_ fun p hp => (State.bootHeld_configure hc p).2 (.inl hp)
    have hl : l ≠ .marker := by
      rintro rfl
      cases hc
    rw [State.configure_eq]
    exact if_neg fun hphase => configurePhase_ne_released hl (hphase.symm.trans hb)

/-- Settles O50: it holds, call by call of the boot sequence. -/
theorem bootReleasesFsm : Obligations.BootReleasesFsm := by
  unfold Obligations.BootReleasesFsm
  refine ⟨fun s q hR hq hb => step_of_queue_idle hR hq (State.turnInstr_fsm_waits hb), fun p d hR => ?released,
    fun s t statuses hblock hb hnone hrun ht => ?statuses, fun s t hs hnr h => ?kept⟩
  case released =>
    obtain ⟨t, ht, hround, hb, herr, hst⟩ := (roundTrip_idealReset d hR).boot_turns rfl (n := 5) rfl
    obtain ⟨-, hu⟩ := (State.bootGood_iff hb).2 hround.callsHeld
    exact ⟨t, ht, hb, hu .marker, hu .dataOut, hu .dataIn, herr, hst⟩
  case statuses =>
    obtain ⟨hheld, hpending⟩ := State.booted_nothing hb hnone
    obtain ⟨hlen, hiff⟩ := hrun.statuses_good hblock hpending ht
    rw [hb] at hlen
    replace hlen : statuses.length = 5 := hlen
    exact ⟨hlen, by rw [bootDone, List.eq_replicate_iff, ← hiff]; simp [hlen, hheld]⟩
  case kept =>
    rcases step_next h with ⟨i, hi, hexec⟩ | ⟨-, rfl⟩
    · exact exec_bootGood (s := s.takeFetch) hs (fun hreset => hnr (hreset ▸ hi)) hexec
    · exact hs

end Sys2Proof.Machine
end
